-- ==== Sys2Proof/Word.lean ====
section
/-! DEFINITION. The machine's plain word types (spec/00_scope.md R6, R10): every value is an unsigned bit vector, and an
index into a bank of sixteen like things is a number below sixteen. -/

namespace Sys2Proof

/-- A register, a timer, a memory byte, a byte immediate: 8 bits (R6). -/
abbrev Byte := BitVec 8

/-- An opcode, the program counter, the index register, a return address: 16 bits (R6). -/
abbrev Word := BitVec 16

/-- The address immediate nnn: 12 bits (R54). -/
abbrev Addr12 := BitVec 12

/-- A register index x or y, from 0 to 15 (R13, R55). -/
abbrev Reg := Fin 16

/-- A sprite height n, from 0 to 15 (R55). -/
abbrev Height := Fin 16

/-- A key index, from 0 to 15 (R24). -/
abbrev Key := Fin 16

/-- A pixel as the host reads it: 32 bits (R6, R22). -/
abbrev PixelWord := BitVec 32

end Sys2Proof
end

