-- ==== Sys2Proof/Config.lean ====
section
/-! DEFINITION. What is fixed for one machine (the configuration parameters of spec/00_scope.md R7) and the free values.
A `Config` is plain data that State carries and nothing writes, so that a statement about every state holds for every
value of every parameter, or names the value it assumes (R7). PORT_PROTOCOL is OPEN and not modelled (D1). -/

namespace Sys2Proof

/-- `SUBDECODE_0E` (R60, D9): how groups 0x0 and 0xE are decoded further. OPEN: the spec gives no default. -/
inductive SubDecode where
  | lowByte
  | lowNibble
  deriving DecidableEq, Repr

/-- `SNE_REG_COMPARE` (R78, D10): what 9xy0 compares. -/
inductive SneCompare where
  | indexNe
  | valueNe
  deriving DecidableEq, Repr

/-- `DRAW_COLLISION` (R103, D11): which set sprite bits count for a collision. -/
inductive DrawCollision where
  | perBit
  | referenceBit0
  deriving DecidableEq, Repr

/-- `VF_AS_DEST` (R82, D12): which write to VF is the last one when the destination is VF itself. -/
inductive VfAsDest where
  | flagLast
  | resultLast
  deriving DecidableEq, Repr

/-- `FONT_TABLE` (R29, D16): any 80 bytes. -/
abbrev FontTable := Vector Byte 80

/-- The configuration parameters of R7. -/
structure Config where
  subDecode : SubDecode
  sneCompare : SneCompare
  drawCollision : DrawCollision
  vfAsDest : VfAsDest
  font : FontTable
  deriving DecidableEq, Repr

/-- The default `FONT_TABLE`: the table of R29, one glyph a line, digits 0 to F. -/
def Config.defaultFont : FontTable :=
  #v[0xF0, 0x90, 0x90, 0x90, 0xF0,
     0x20, 0x60, 0x20, 0x20, 0x70,
     0xF0, 0x10, 0xF0, 0x80, 0xF0,
     0xF0, 0x10, 0xF0, 0x10, 0xF0,
     0x90, 0x90, 0xF0, 0x10, 0x10,
     0xF0, 0x80, 0xF0, 0x10, 0xF0,
     0xF0, 0x80, 0xF0, 0x90, 0xF0,
     0xF0, 0x10, 0x20, 0x40, 0x40,
     0xF0, 0x90, 0xF0, 0x90, 0xF0,
     0xF0, 0x90, 0xF0, 0x10, 0xF0,
     0xF0, 0x90, 0xF0, 0x90, 0x90,
     0xE0, 0x90, 0xE0, 0x90, 0xE0,
     0xF0, 0x80, 0x80, 0x80, 0xF0,
     0xE0, 0x90, 0x90, 0x90, 0xE0,
     0xF0, 0x80, 0xF0, 0x80, 0xF0,
     0xF0, 0x80, 0xF0, 0x80, 0x80]

/-- The configuration of `State.reset`: the defaults R7 states, and for `SUBDECODE_0E`, which R7 leaves OPEN, the value under
which the opcode table's own match and mask hold. DESIGN CHOICE (log entry 2). Unsafe for a claim about `State.reset` alone. -/
def Config.default : Config where
  subDecode := .lowByte
  sneCompare := .indexNe
  drawCollision := .perBit
  vfAsDest := .flagLast
  font := Config.defaultFont

/-- The free value of R8 and R94: the byte the host's random source gives at its k-th use. It has no body, so nothing can be
proved of its value; a claim holds for every sequence of bytes (D21). DESIGN CHOICE of form (log entry 4). Safe. -/
opaque Config.randomByte : Nat → Byte

end Sys2Proof
end

