-- ==== Sys2Proof/Syntax.lean ====
section
/-! DEFINITION. The instructions: one constructor per row of spec/opcode_table.json, in its order (R65). Fields are those of
R54. A word no row matches is no instruction: `Sys2Proof.Handler.unmatched` in Decode.lean (R63). -/

namespace Sys2Proof

inductive Instr where
  /-- 00E0 CLS (R104). -/
  | cls
  /-- 00EE RET (R72). -/
  | ret
  /-- 0nnn SYS nnn (R71). -/
  | sys (nnn : Addr12)
  /-- 1nnn JP nnn (R73). -/
  | jp (nnn : Addr12)
  /-- 2nnn CALL nnn (R74). -/
  | call (nnn : Addr12)
  /-- 3xkk SE Vx, kk (R75). -/
  | seImm (x : Reg) (kk : Byte)
  /-- 4xkk SNE Vx, kk (R76). -/
  | sneImm (x : Reg) (kk : Byte)
  /-- 5xy0 SE Vx, Vy (R77). -/
  | seReg (x y : Reg)
  /-- 6xkk LD Vx, kk (R83). -/
  | ldImm (x : Reg) (kk : Byte)
  /-- 7xkk ADD Vx, kk (R84). -/
  | addImm (x : Reg) (kk : Byte)
  /-- 8xy0 LD Vx, Vy (R85). -/
  | ldReg (x y : Reg)
  /-- 8xy1 OR Vx, Vy (R86). -/
  | orReg (x y : Reg)
  /-- 8xy2 AND Vx, Vy (R87). -/
  | andReg (x y : Reg)
  /-- 8xy3 XOR Vx, Vy (R88). -/
  | xorReg (x y : Reg)
  /-- 8xy4 ADD Vx, Vy (R89). -/
  | addReg (x y : Reg)
  /-- 8xy5 SUB Vx, Vy (R90). -/
  | subReg (x y : Reg)
  /-- 8xy6 SHR Vx (R91): y is encoded but ignored. -/
  | shr (x y : Reg)
  /-- 8xy7 SUBN Vx, Vy (R92). -/
  | subn (x y : Reg)
  /-- 8xyE SHL Vx (R93): y is encoded but ignored. -/
  | shl (x y : Reg)
  /-- 9xy0 SNE Vx, Vy (R78). -/
  | sneReg (x y : Reg)
  /-- Annn LD I, nnn (R95). -/
  | ldI (nnn : Addr12)
  /-- Bnnn JP V0, nnn (R79). -/
  | jpV0 (nnn : Addr12)
  /-- Cxkk RND Vx, kk (R94). -/
  | rnd (x : Reg) (kk : Byte)
  /-- Dxyn DRW Vx, Vy, n (R105). -/
  | drw (x y : Reg) (n : Height)
  /-- Ex9E SKP Vx (R106). -/
  | skp (x : Reg)
  /-- ExA1 SKNP Vx (R107). -/
  | sknp (x : Reg)
  /-- Fx07 LD Vx, DT (R108). -/
  | ldVxDt (x : Reg)
  /-- Fx0A LD Vx, K (R109). -/
  | ldVxKey (x : Reg)
  /-- Fx15 LD DT, Vx (R110). -/
  | ldDtVx (x : Reg)
  /-- Fx18 LD ST, Vx (R111). -/
  | ldStVx (x : Reg)
  /-- Fx1E ADD I, Vx (R96). -/
  | addI (x : Reg)
  /-- Fx29 LD F, Vx (R97). -/
  | ldF (x : Reg)
  /-- Fx33 LD B, Vx (R98). -/
  | ldB (x : Reg)
  /-- Fx55 LD [I], Vx (R99). -/
  | storeRegs (x : Reg)
  /-- Fx65 LD Vx, [I] (R100). -/
  | loadRegs (x : Reg)
  deriving DecidableEq, Repr

end Sys2Proof
end

