-- ==== Sys2Proof/WellFormed.lean ====
section
/-! DEFINITION. Which terms of `Instr` are instructions of the machine. Every operand's range is in its type; the one check
left is SYS's: it runs "group 0x0 words that are neither CLS nor RET under SUBDECODE_0E" (R71, R60), so an operand whose word
is CLS or RET is no operand of SYS. -/

namespace Sys2Proof

/-- The operands of SYS under each value of `SUBDECODE_0E` (R60). -/
def sysOperandOk (sub : SubDecode) (nnn : Addr12) : Bool :=
  match sub with
  | .lowByte => nnn.extractLsb' 0 8 != 0xE0#8 && nnn.extractLsb' 0 8 != 0xEE#8
  | .lowNibble => nnn.extractLsb' 0 4 != 0x0#4 && nnn.extractLsb' 0 4 != 0xE#4

/-- Well-formedness of an instruction on a machine with the given `SUBDECODE_0E`. -/
def Instr.wellFormed (sub : SubDecode) : Instr → Bool
  | .sys nnn => sysOperandOk sub nnn
  | .cls | .ret | .jp _ | .call _ | .seImm _ _ | .sneImm _ _ | .seReg _ _ | .ldImm _ _ | .addImm _ _
  | .ldReg _ _ | .orReg _ _ | .andReg _ _ | .xorReg _ _ | .addReg _ _ | .subReg _ _ | .shr _ _
  | .subn _ _ | .shl _ _ | .sneReg _ _ | .ldI _ | .jpV0 _ | .rnd _ _ | .drw _ _ _ | .skp _ | .sknp _
  | .ldVxDt _ | .ldVxKey _ | .ldDtVx _ | .ldStVx _ | .addI _ | .ldF _ | .ldB _ | .storeRegs _
  | .loadRegs _ => true

end Sys2Proof
end

