-- ==== Sys2Proof/Decode.lean ====
section
/-! DEFINITION. The decoder (spec/30_encoding.md R54, R59 to R63, R70) and, after it, the encoder written from the same
table (R65). Decoding is total: each of the 65536 words selects one handler (R70). -/

namespace Sys2Proof

/-- `o = op[15:12]`, the leading nibble (R54). -/
def opO (op : Word) : BitVec 4 := op.extractLsb' 12 4

/-- `x = op[11:8]` (R54). -/
def opX (op : Word) : Reg := (op.extractLsb' 8 4).toFin

/-- `y = op[7:4]` (R54). -/
def opY (op : Word) : Reg := (op.extractLsb' 4 4).toFin

/-- `n = op[3:0]` (R54, 90_conflicts.md C2). -/
def opN (op : Word) : BitVec 4 := op.extractLsb' 0 4

/-- `kk = op[7:0]` (R54). -/
def opKK (op : Word) : Byte := op.extractLsb' 0 8

/-- `nnn = op[11:0]` (R54). -/
def opNNN (op : Word) : Addr12 := op.extractLsb' 0 12

/-- Big-endian composition, `(zext16(h) << 8) | zext16(l)` (R10, R41, R57). -/
def joinBytes (h l : Byte) : Word := (h.setWidth 16 <<< 8) ||| l.setWidth 16

/-- The byte of a word at the lower address: `op[15:8]` (R41). -/
def highByte (w : Word) : Byte := w.extractLsb' 8 8

/-- The byte of a word at the higher address: `op[7:0]` (R41). -/
def lowByte (w : Word) : Byte := w.extractLsb' 0 8

/-- What a word selects: "an instruction of rule R65 or the unmatched no-op of rule R63" (R70). -/
inductive Handler where
  | instr (i : Instr)
  | unmatched
  deriving DecidableEq, Repr

/-- Why a sequence of bytes holds no opcode: an opcode is two bytes (R53). -/
inductive DecodeReject where
  | truncated
  deriving DecidableEq, Repr

/-- Group 0x0, decoded by the low byte or the low nibble (R60). op[11:8] is not examined. -/
def decodeGroup0 (sub : SubDecode) (op : Word) : Handler :=
  match sub with
  | .lowByte =>
    if opKK op = 0xE0 then .instr .cls
    else if opKK op = 0xEE then .instr .ret
    else .instr (.sys (opNNN op))
  | .lowNibble =>
    if opN op = 0x0 then .instr .cls
    else if opN op = 0xE then .instr .ret
    else .instr (.sys (opNNN op))

/-- Group 0x8, decoded by the low nibble (R61). -/
def decodeGroup8 (op : Word) : Handler :=
  match (opN op).toNat with
  | 0x0 => .instr (.ldReg (opX op) (opY op))
  | 0x1 => .instr (.orReg (opX op) (opY op))
  | 0x2 => .instr (.andReg (opX op) (opY op))
  | 0x3 => .instr (.xorReg (opX op) (opY op))
  | 0x4 => .instr (.addReg (opX op) (opY op))
  | 0x5 => .instr (.subReg (opX op) (opY op))
  | 0x6 => .instr (.shr (opX op) (opY op))
  | 0x7 => .instr (.subn (opX op) (opY op))
  | 0xE => .instr (.shl (opX op) (opY op))
  | _ => .unmatched

/-- Group 0xE, decoded by the low byte or the low nibble (R60). -/
def decodeGroupE (sub : SubDecode) (op : Word) : Handler :=
  match sub with
  | .lowByte =>
    if opKK op = 0x9E then .instr (.skp (opX op))
    else if opKK op = 0xA1 then .instr (.sknp (opX op))
    else .unmatched
  | .lowNibble =>
    if opN op = 0xE then .instr (.skp (opX op))
    else if opN op = 0x1 then .instr (.sknp (opX op))
    else .unmatched

/-- Group 0xF, decoded by the low byte (R62). -/
def decodeGroupF (op : Word) : Handler :=
  match (opKK op).toNat with
  | 0x07 => .instr (.ldVxDt (opX op))
  | 0x0A => .instr (.ldVxKey (opX op))
  | 0x15 => .instr (.ldDtVx (opX op))
  | 0x18 => .instr (.ldStVx (opX op))
  | 0x1E => .instr (.addI (opX op))
  | 0x29 => .instr (.ldF (opX op))
  | 0x33 => .instr (.ldB (opX op))
  | 0x55 => .instr (.storeRegs (opX op))
  | 0x65 => .instr (.loadRegs (opX op))
  | _ => .unmatched

/-- The decoder: by the leading nibble, and in groups 0, 8, E and F by more (R59). The leading nibble has four bits, so the
last case is 0xF. -/
def decode (sub : SubDecode) (op : Word) : Handler :=
  match (opO op).toNat with
  | 0x0 => decodeGroup0 sub op
  | 0x1 => .instr (.jp (opNNN op))
  | 0x2 => .instr (.call (opNNN op))
  | 0x3 => .instr (.seImm (opX op) (opKK op))
  | 0x4 => .instr (.sneImm (opX op) (opKK op))
  | 0x5 => .instr (.seReg (opX op) (opY op))
  | 0x6 => .instr (.ldImm (opX op) (opKK op))
  | 0x7 => .instr (.addImm (opX op) (opKK op))
  | 0x8 => decodeGroup8 op
  | 0x9 => .instr (.sneReg (opX op) (opY op))
  | 0xA => .instr (.ldI (opNNN op))
  | 0xB => .instr (.jpV0 (opNNN op))
  | 0xC => .instr (.rnd (opX op) (opKK op))
  | 0xD => .instr (.drw (opX op) (opY op) (opN op).toFin)
  | 0xE => decodeGroupE sub op
  | _ => decodeGroupF op

/-- The decoder on bytes, lowest address first: one opcode and the bytes after it, or a rejection by name when there are
fewer than two bytes (R53, R41). -/
def decodeBytes (sub : SubDecode) : List Byte → Except DecodeReject (Handler × List Byte)
  | h :: l :: rest => .ok (decode sub (joinBytes h l), rest)
  | _ => .error .truncated

/-- Format NNN: `oooo nnnn nnnn nnnn` (R54). -/
def packNNN (o : BitVec 4) (nnn : Addr12) : Word := o ++ nnn

/-- Formats XKK and XSS: `oooo xxxx kkkk kkkk` (R54). -/
def packXKK (o : BitVec 4) (x : Reg) (kk : Byte) : Word := o ++ (BitVec.ofFin x : BitVec 4) ++ kk

/-- Formats XY, XYS and XYN: `oooo xxxx yyyy ssss` (R54). -/
def packXYN (o : BitVec 4) (x y : Reg) (n : BitVec 4) : Word :=
  o ++ (BitVec.ofFin x : BitVec 4) ++ (BitVec.ofFin y : BitVec 4) ++ n

/-- The canonical word of an instruction (R65, R68). A bit the decoder ignores is 0. -/
def encode : Instr → Word
  | .cls => packNNN 0x0 0x0E0
  | .ret => packNNN 0x0 0x0EE
  | .sys nnn => packNNN 0x0 nnn
  | .jp nnn => packNNN 0x1 nnn
  | .call nnn => packNNN 0x2 nnn
  | .seImm x kk => packXKK 0x3 x kk
  | .sneImm x kk => packXKK 0x4 x kk
  | .seReg x y => packXYN 0x5 x y 0x0
  | .ldImm x kk => packXKK 0x6 x kk
  | .addImm x kk => packXKK 0x7 x kk
  | .ldReg x y => packXYN 0x8 x y 0x0
  | .orReg x y => packXYN 0x8 x y 0x1
  | .andReg x y => packXYN 0x8 x y 0x2
  | .xorReg x y => packXYN 0x8 x y 0x3
  | .addReg x y => packXYN 0x8 x y 0x4
  | .subReg x y => packXYN 0x8 x y 0x5
  | .shr x y => packXYN 0x8 x y 0x6
  | .subn x y => packXYN 0x8 x y 0x7
  | .shl x y => packXYN 0x8 x y 0xE
  | .sneReg x y => packXYN 0x9 x y 0x0
  | .ldI nnn => packNNN 0xA nnn
  | .jpV0 nnn => packNNN 0xB nnn
  | .rnd x kk => packXKK 0xC x kk
  | .drw x y n => packXYN 0xD x y (BitVec.ofFin n : BitVec 4)
  | .skp x => packXKK 0xE x 0x9E
  | .sknp x => packXKK 0xE x 0xA1
  | .ldVxDt x => packXKK 0xF x 0x07
  | .ldVxKey x => packXKK 0xF x 0x0A
  | .ldDtVx x => packXKK 0xF x 0x15
  | .ldStVx x => packXKK 0xF x 0x18
  | .addI x => packXKK 0xF x 0x1E
  | .ldF x => packXKK 0xF x 0x29
  | .ldB x => packXKK 0xF x 0x33
  | .storeRegs x => packXKK 0xF x 0x55
  | .loadRegs x => packXKK 0xF x 0x65

/-- An opcode as memory stores it, lowest address first (R41). -/
def wordBytes (w : Word) : List Byte := [highByte w, lowByte w]

/-- The opcode whose bits are those of w below `nbits`, as the opcode table numbers them (bit 0 the least significant bit of
the one 16-bit word, R9); every bit above `nbits` is 0. -/
def tableWord (nbits w : Nat) : Word := BitVec.ofNat 16 (w % 2 ^ nbits)

/-- The instruction the decoder reads from an opcode given by its bits, on the machine of `Config.default`: the table's match
and mask "hold under SUBDECODE_0E = low_byte" (R60). None is the unmatched no-op of R63. -/
def decodeTableWord (nbits w : Nat) : Option Instr :=
  match decodeBytes Config.default.subDecode (wordBytes (tableWord nbits w)) with
  | .ok (.instr i, _) => some i
  | .ok (.unmatched, _) => none
  | .error _ => none

end Sys2Proof
end

