-- ==== Sys2Proof/Machine/State.lean ====
section
/-! DEFINITION. The state of the machine as plain data: every piece of state spec/10_state.md names (R13 to R28), the
machine's configuration (R7), and the model's two fields for the input `rand` (R8). Then the state after reset (R30). -/

namespace Sys2Proof.Machine

/-- Memory as (address, byte) cells in canonical form (`Memory.WF`): a byte that holds its reset contents is not listed. -/
abbrev Memory := List Host.Cell

/-- The framebuffer: 32 rows of 64 columns, row 0 the top and column 0 the left (R23). A pixel is one bit, true for
0xFFFFFFFF and false for 0x00000000, as R22 allows. -/
abbrev FrameBuffer := Vector (Vector Bool 64) 32

/-- The causes of R113 (NONE, code 0, is the absence of one). -/
inductive FaultCause where
  | fetchRange
  | stackOverflow
  | stackUnderflow
  | memReadRange
  | memWriteRange
  | keyRange
  | indexOverflow
  deriving DecidableEq, Repr

/-- The arguments of `raise Fault(cause, info)` (R115). -/
structure FaultRaise where
  cause : FaultCause
  info : Word
  deriving DecidableEq, Repr

structure State where
  /-- The configuration parameters (R7). Nothing writes them. -/
  config : Config
  /-- V0 to VF (R13). VF, index 15, is also the flag (R15). -/
  v : Vector Byte 16
  /-- I (R16). -/
  index : Word
  /-- PC (R17). While a handler runs it is the instruction's address plus 2 (R58). -/
  pc : Word
  /-- SP, the number of occupied stack slots, 0 to 16 (R18). -/
  sp : Fin 17
  /-- S[0] to S[15] (R19). -/
  stack : Vector Word 16
  /-- DT (R20). -/
  dt : Byte
  /-- ST (R21). -/
  st : Byte
  /-- FB (R22, R23). -/
  fb : FrameBuffer
  /-- KEY[0] to KEY[15], true for pressed (R24). -/
  keys : Vector Bool 16
  /-- M (R28). -/
  mem : Memory
  /-- FAULTED (R25). -/
  faulted : Bool
  /-- FAULT_CAUSE (R25). -/
  faultCause : Byte
  /-- FAULT_PC (R25). -/
  faultPc : Word
  /-- FAULT_OPCODE (R25). -/
  faultOpcode : Word
  /-- FAULT_INFO (R25). -/
  faultInfo : Word
  /-- The opcode latch, "transient 16-bit value holding the currently fetched instruction" (R27): 0 between cycles. -/
  opcode : Word
  /-- The model's own: the byte the host has handed over with `Cycle(rand)`, until the cycle ends (R56, R128). -/
  randIn : Option Byte
  /-- The model's own: how many random bytes RND has consumed (R94), the argument of the free value `Config.randomByte`. -/
  randCount : Nat
  deriving DecidableEq, Repr

/-- Why a step stops the machine: never. A fault of this hardware is a state the spec describes (R115, R116), so taking one
is a next state, and no constructor is needed. No meaning raises a `Fault`; that is safe. -/
inductive Fault where
  deriving DecidableEq, Repr

/-- Why an instruction has no meaning in the model. -/
inductive Refusal where
  /-- An instruction the model does not give a meaning yet; raised by an arm of `exec` only, and by none now. Safe. -/
  | notModelled (mnemonic : String)
  deriving DecidableEq, Repr

/-- What a handler answers. -/
abbrev Result := Host.Outcome State Fault Refusal

/-- The machine right after `Reset()`, for a given configuration (R30, R135). Nothing is listed in memory: every byte holds
its reset contents. -/
def State.resetWith (c : Config) : State where
  config := c
  v := Vector.replicate 16 0x00
  index := 0x0000
  pc := 0x0200
  sp := 0
  stack := Vector.replicate 16 0x0000
  dt := 0x00
  st := 0x00
  fb := Vector.replicate 32 (Vector.replicate 64 false)
  keys := Vector.replicate 16 false
  mem := []
  faulted := false
  faultCause := 0x00
  faultPc := 0x0000
  faultOpcode := 0x0000
  faultInfo := 0x0000
  opcode := 0x0000
  randIn := none
  randCount := 0

/-- The machine right after reset, with the default configuration (R7, R30). -/
def State.reset : State := State.resetWith Config.default

end Sys2Proof.Machine
end

