-- ==== Sys2Proof/Machine/Ops.lean ====
section
/-! DEFINITION. The named operations over the state: reads and writes of memory (spec/20_memory.md R39, R40), of the
registers, the stack and the framebuffer, and taking a fault (spec/60_exceptions.md R115), the one operation every
instruction that faults goes through. -/

namespace Sys2Proof.Machine

/-! ### Memory -/

/-- The reset contents of memory: the font table at 0x050 to 0x09F, zero elsewhere (R28, R30, R35). This is what a byte that
`Memory` does not list reads as. -/
def Memory.initial (font : FontTable) (a : Nat) : Byte :=
  if h : 0x050 ≤ a ∧ a < 0x0A0 then font[a - 0x050] else 0x00

/-- The byte at an address (R38). -/
def Memory.read (font : FontTable) : Memory → Nat → Byte
  | [], a => Memory.initial font a
  | (a', b') :: rest, a => if a = a' then b' else Memory.read font rest a

/-- Storing a byte at an address (R38), keeping the canonical form. -/
def Memory.write (font : FontTable) : Memory → Nat → Byte → Memory
  | [], a, b => if b = Memory.initial font a then [] else [(a, b)]
  | (a', b') :: rest, a, b =>
    if a < a' then
      if b = Memory.initial font a then (a', b') :: rest else (a, b) :: (a', b') :: rest
    else if a = a' then
      if b = Memory.initial font a then rest else (a, b) :: rest
    else (a', b') :: Memory.write font rest a b

/-- Storing bytes at consecutive addresses, the first at `a` (R40). -/
def Memory.writeBytes (font : FontTable) (m : Memory) (a : Nat) : List Byte → Memory
  | [] => m
  | b :: bs => Memory.writeBytes font (Memory.write font m a b) (a + 1) bs

/-- The canonical form of memory: addresses strictly rise and lie in the address space (R33), and no cell holds the byte's
reset contents. -/
abbrev Memory.WF (font : FontTable) (m : Memory) : Prop :=
  m.Pairwise (fun c d => c.1 < d.1) ∧ ∀ c ∈ m, c.1 < 0x1000 ∧ c.2 ≠ Memory.initial font c.1

/-- M[a] (R38). -/
def State.readByte (s : State) (a : Nat) : Byte := Memory.read s.config.font s.mem a

/-- M with the bytes stored from address `a` up (R40). -/
def State.storeBytes (s : State) (a : Nat) (bytes : List Byte) : State :=
  { s with mem := Memory.writeBytes s.config.font s.mem a bytes }

/-- The lowest address of an out-of-range access that exceeds 0xFFF, `max(addr, 0x1000)` (R39, R40, R57). -/
def rangeInfo (a : Nat) : Word := BitVec.ofNat 16 (max a 0x1000)

/-- `MemRead(addr, n)` for n ≥ 1 (R39). -/
def memRead (s : State) (a n : Nat) : Except FaultRaise (List Byte) :=
  if a + n - 1 > 0xFFF then .error ⟨.memReadRange, rangeInfo a⟩
  else .ok ((List.range n).map fun k => s.readByte (a + k))

/-- `MemWrite(addr, n, v)` for n ≥ 1, n the number of bytes of v: all of them or none (R40). -/
def memWrite (s : State) (a : Nat) (bytes : List Byte) : Except FaultRaise State :=
  if a + bytes.length - 1 > 0xFFF then .error ⟨.memWriteRange, rangeInfo a⟩
  else .ok (s.storeBytes a bytes)

/-! ### Registers -/

/-- `V[x] <- b` (R11). -/
def State.setV (s : State) (x : Reg) (b : Byte) : State := { s with v := s.v.set x b }

/-- `I <- w` (R11). -/
def State.setIndex (s : State) (w : Word) : State := { s with index := w }

/-- `PC <- w` (R11). -/
def State.setPc (s : State) (w : Word) : State := { s with pc := w }

/-- `DT <- b` (R11). -/
def State.setDt (s : State) (b : Byte) : State := { s with dt := b }

/-- `ST <- b` (R11). -/
def State.setSt (s : State) (b : Byte) : State := { s with st := b }

/-- The framebuffer replaced (R22). -/
def State.setFb (s : State) (fb : FrameBuffer) : State := { s with fb := fb }

/-- `V[i] <- b[i] for i in 0 .. x` (R100). -/
def State.setRegsUpTo (s : State) (x : Reg) (bytes : List Byte) : State :=
  { s with v := Vector.ofFn fun i : Fin 16 => if i ≤ x then bytes.getD i.val 0 else s.v[i] }

/-- A skip: "adds a further 2" to PC when the condition holds (R17, R58). -/
def State.skipIf (s : State) (c : Bool) : State := { s with pc := if c then s.pc + 2 else s.pc }

/-! ### The call stack -/

/-- `S[SP] <- w; SP <- SP + 1`, where there is a free slot (R19, R74). -/
def State.push (s : State) (w : Word) (h : s.sp.val ≠ 16) : State :=
  { s with
    stack := s.stack.set s.sp.val w (by have := s.sp.isLt; omega)
    sp := ⟨s.sp.val + 1, by have := s.sp.isLt; omega⟩ }

/-- `SP <- SP - 1; PC <- S[SP]`, where a slot is occupied; the slot keeps its value (R19, R72). -/
def State.popPc (s : State) (_h : s.sp.val ≠ 0) : State :=
  { s with
    sp := ⟨s.sp.val - 1, by have := s.sp.isLt; omega⟩
    pc := s.stack[s.sp.val - 1]'(by have := s.sp.isLt; omega) }

/-! ### The framebuffer -/

/-- Every pixel OFF (R104). -/
def FrameBuffer.blank : FrameBuffer := Vector.replicate 32 (Vector.replicate 64 false)

/-- FB[px][py] = ON (R23). A coordinate off the screen has no pixel and reads as OFF. -/
def FrameBuffer.pixel (fb : FrameBuffer) (px py : Nat) : Bool :=
  if h : px < 64 ∧ py < 32 then (fb[py]'h.2)[px]'h.1 else false

/-- `FB[px][py] <- FB[px][py] ^ ON` (R105). Off the screen it does nothing. -/
def FrameBuffer.toggle (fb : FrameBuffer) (px py : Nat) : FrameBuffer :=
  if h : px < 64 ∧ py < 32 then
    fb.set py ((fb[py]'h.2).set px (!((fb[py]'h.2)[px]'h.1)) h.1) h.2
  else fb

/-- The 32-bit word of a pixel: ON is 0xFFFFFFFF and OFF is 0x00000000 (R22). -/
def pixelWord (on : Bool) : PixelWord := if on then 0xFFFFFFFF else 0x00000000

/-- The 2048 pixel words in row-major order: word py·64 + px is FB[px][py] (R23). -/
def FrameBuffer.words (fb : FrameBuffer) : List PixelWord :=
  fb.toList.flatMap fun row => row.toList.map pixelWord

/-! ### Taking a fault -/

/-- The code of a cause (R113). -/
def FaultCause.code : FaultCause → Byte
  | .fetchRange => 1
  | .stackOverflow => 2
  | .stackUnderflow => 3
  | .memReadRange => 4
  | .memWriteRange => 5
  | .keyRange => 6
  | .indexOverflow => 7

/-- `raise Fault(cause, info)` in a cycle whose PC at start was `pc0` and whose opcode was `op` (R115). It is applied to a
state in which the cycle has written nothing but PC, so discarding the cycle's writes is putting PC back to `pc0`. Nothing is
pushed and control goes nowhere (R118). No instruction returns from a fault (R119): only `Reset()` clears one (R116). -/
def State.takeFault (s : State) (r : FaultRaise) (pc0 op : Word) : State :=
  { s with
    pc := pc0
    faulted := true
    faultCause := r.cause.code
    faultPc := pc0
    faultOpcode := if r.cause = .fetchRange then 0x0000 else op
    faultInfo := r.info }

/-- A fault raised by a handler. While it runs, PC is the instruction's address plus 2 (R58) and the opcode latch holds the
fetched word (R27). -/
def State.raise (s : State) (r : FaultRaise) : State := s.takeFault r (s.pc - 2) s.opcode

/-- The tail of a handler with one fault condition (R117): take the fault, or go on with the value. -/
def orRaise {α : Type} (s : State) (e : Except FaultRaise α) (k : α → State) : Result :=
  match e with
  | .error r => .next (s.raise r)
  | .ok a => .next (k a)

/-- The fault status registers at their reset values (R25). -/
def State.clearFault (s : State) : State :=
  { s with faulted := false, faultCause := 0, faultPc := 0, faultOpcode := 0, faultInfo := 0 }

/-! ### The random byte -/

/-- `rand`: the byte the host has handed over, or one that nothing constrains (R8, R94, R128). -/
def State.randByte (s : State) : Byte := s.randIn.getD (Config.randomByte s.randCount)

/-- "consumed by one instruction" (R27, R94): the byte is used up. -/
def State.consumeRand (s : State) : State := { s with randIn := none, randCount := s.randCount + 1 }

end Sys2Proof.Machine
end

