-- ==== Sys2Proof/Machine/Operands.lean ====
section
/-! DEFINITION. Every operand form of spec/: how an instruction's fields, registers, keys and memory operands become values
(R10, R43, R55, R97, R98, R101, R102, R106, R109). -/

namespace Sys2Proof.Machine

/-- `zext16(v)` of a byte (R10). -/
def zext16 (b : Byte) : Word := b.setWidth 16

/-- `zext16(nnn)` (R10, R55). -/
def zextAddr (nnn : Addr12) : Word := nnn.setWidth 16

/-- VF, the flag register (R15). -/
def vf : Reg := 15

/-- The address I + k, exact, with no wrap (R39, R40; "I plus a small constant offset", 42_index_memory.md). -/
def State.indexAddr (s : State) (k : Nat) : Nat := s.index.toNat + k

/-- Vx as a key index (R106, R107): outside 0 to 15 it is KEY_RANGE with info `zext16(Vx)`. -/
def State.keyOperand (s : State) (x : Reg) : Except FaultRaise Key :=
  if h : s.v[x].toNat > 0xF then .error ⟨.keyRange, zext16 s.v[x]⟩
  else .ok ⟨s.v[x].toNat, by omega⟩

/-- The lowest pressed key (R109, D19). -/
def State.lowestKey (s : State) : Option Key := (List.finRange 16).find? fun k => s.keys[k]

/-- I + zext16(Vx), exact; past 0xFFFF it is INDEX_OVERFLOW with info `zext16(Vx)` (R96). -/
def State.indexSum (s : State) (x : Reg) : Except FaultRaise Word :=
  if s.index.toNat + s.v[x].toNat > 0xFFFF then .error ⟨.indexOverflow, zext16 s.v[x]⟩
  else .ok (BitVec.ofNat 16 (s.index.toNat + s.v[x].toNat))

/-- `0x050 + 5 * zext16(Vx)`, Vx not reduced to its low nibble (R97). -/
def glyphAddr (b : Byte) : Word := BitVec.ofNat 16 (0x050 + 5 * b.toNat)

/-- The three decimal digits, most significant first: `[v / 100, (v / 10) mod 10, v mod 10]` (R98). -/
def decimalDigits (b : Byte) : List Byte :=
  [BitVec.ofNat 8 (b.toNat / 100), BitVec.ofNat 8 (b.toNat / 10 % 10), BitVec.ofNat 8 (b.toNat % 10)]

/-- `[V[0], V[1], ..., V[x]]` (R99). -/
def State.regsUpTo (s : State) (x : Reg) : List Byte := s.v.toList.take (x.val + 1)

/-- `px0 = V[x] mod 64` (R102). -/
def State.originColumn (s : State) (x : Reg) : Nat := s.v[x].toNat % 64

/-- `py0 = V[y] mod 32` (R102). -/
def State.originRow (s : State) (y : Reg) : Nat := s.v[y].toNat % 32

/-- The n sprite bytes at I; with n = 0 no memory is read (R101, R105). -/
def State.spriteRows (s : State) (n : Height) : Except FaultRaise (List Byte) :=
  if n.val > 0 then memRead s s.index.toNat n.val else .ok []

/-- The sprite bit of column c, `(b >> (7 - c)) & 1`: the most significant bit is the leftmost column (R101). -/
def spriteBit (b : Byte) (c : Nat) : Bool := (b >>> (7 - c)) &&& 1 == 1

end Sys2Proof.Machine
end

