-- ==== Sys2Proof/Machine/Flags.lean ====
section
/-! DEFINITION. Every flag computation of spec/: the results and flags of the arithmetic instructions (spec/41_alu.md R81,
R89 to R93), the order of the two writes (R82), and which sprite bits count for a collision (spec/43_display.md R103). -/

namespace Sys2Proof.Machine

/-- A flag value: 1 or 0 (R15). -/
def flagByte (c : Bool) : Byte := if c then 1 else 0

/-- A result and a flag, both computed from the values before the instruction (R82). -/
structure ResultFlag where
  result : Byte
  flag : Byte
  deriving DecidableEq, Repr

/-- Addition with carry out: the flag is 1 exactly when the unreduced sum exceeds 255 (R81, R89). -/
def addFlag (a b : Byte) : ResultFlag :=
  let sum := a.toNat + b.toNat
  ⟨BitVec.ofNat 8 (sum % 256), flagByte (sum > 255)⟩

/-- Subtraction, minuend first: the flag is 1 exactly when there is no borrow, minuend ≥ subtrahend (R81, R90, R92). -/
def subFlag (minuend subtrahend : Byte) : ResultFlag :=
  ⟨BitVec.ofNat 8 ((minuend.toNat + 256 - subtrahend.toNat) % 256), flagByte (minuend.toNat ≥ subtrahend.toNat)⟩

/-- Shift right by one; the flag is the bit shifted out, `a & 0x01` (R91). -/
def shrFlag (a : Byte) : ResultFlag := ⟨a >>> 1, a &&& 0x01⟩

/-- Shift left by one, truncated to 8 bits; the flag is the bit shifted out, `a >> 7` (R93). -/
def shlFlag (a : Byte) : ResultFlag := ⟨BitVec.ofNat 8 (a.toNat * 2 % 256), a >>> 7⟩

/-- `WriteRF(x, r, f)`: the order of the writes is `VF_AS_DEST`'s, and matters only when x is VF (R82). -/
def State.writeRF (s : State) (x : Reg) (rf : ResultFlag) : State :=
  match s.config.vfAsDest with
  | .flagLast => (s.setV x rf.result).setV vf rf.flag
  | .resultLast => (s.setV vf rf.flag).setV x rf.result

/-- Whether a set bit of column c counts for a collision: every one under `per_bit`, column 7 (bit 0 of the row byte) under
`reference_bit0` (R103). -/
def collisionCounts (mode : DrawCollision) (c : Nat) : Bool :=
  match mode with
  | .perBit => true
  | .referenceBit0 => c == 7

end Sys2Proof.Machine
end

