-- ==== Sys2Proof/Machine/Alu.lean ====
section
/-! DEFINITION. spec/41_alu.md: the immediate forms, the register-register logic and arithmetic, the shifts and the random
byte. None of them touches PC or memory, and none faults. -/

namespace Sys2Proof.Machine

/-- LD Vx, kk (R83). -/
def execLdImm (x : Reg) (kk : Byte) (s : State) : Result := .next (s.setV x kk)

/-- ADD Vx, kk: modulo 256, no flag (R84). -/
def execAddImm (x : Reg) (kk : Byte) (s : State) : Result :=
  .next (s.setV x (BitVec.ofNat 8 ((s.v[x].toNat + kk.toNat) % 256)))

/-- LD Vx, Vy (R85). -/
def execLdReg (x y : Reg) (s : State) : Result := .next (s.setV x s.v[y])

/-- OR Vx, Vy (R86). -/
def execOrReg (x y : Reg) (s : State) : Result := .next (s.setV x (s.v[x] ||| s.v[y]))

/-- AND Vx, Vy (R87). -/
def execAndReg (x y : Reg) (s : State) : Result := .next (s.setV x (s.v[x] &&& s.v[y]))

/-- XOR Vx, Vy (R88). -/
def execXorReg (x y : Reg) (s : State) : Result := .next (s.setV x (s.v[x] ^^^ s.v[y]))

/-- ADD Vx, Vy (R89). -/
def execAddReg (x y : Reg) (s : State) : Result := .next (s.writeRF x (addFlag s.v[x] s.v[y]))

/-- SUB Vx, Vy: the minuend is Vx (R90). -/
def execSubReg (x y : Reg) (s : State) : Result := .next (s.writeRF x (subFlag s.v[x] s.v[y]))

/-- SHR Vx: Vy is neither read nor copied (R91). -/
def execShr (x _y : Reg) (s : State) : Result := .next (s.writeRF x (shrFlag s.v[x]))

/-- SUBN Vx, Vy: the minuend is Vy (R92). -/
def execSubn (x y : Reg) (s : State) : Result := .next (s.writeRF x (subFlag s.v[y] s.v[x]))

/-- SHL Vx: Vy is not read (R93). -/
def execShl (x _y : Reg) (s : State) : Result := .next (s.writeRF x (shlFlag s.v[x]))

/-- RND Vx, kk: `rand & kk`, the random byte consumed (R94). -/
def execRnd (x : Reg) (kk : Byte) (s : State) : Result := .next ((s.setV x (s.randByte &&& kk)).consumeRand)

end Sys2Proof.Machine
end

