-- ==== Sys2Proof/Machine/ControlFlow.lean ====
section
/-! DEFINITION. spec/40_control_flow.md: SYS, RET, JP, CALL, the skips and JP V0. In every meaning PC already holds the
instruction's address plus 2 (R58). -/

namespace Sys2Proof.Machine

/-- SYS nnn: nothing (R71). -/
def execSys (_nnn : Addr12) (s : State) : Result := .next s

/-- A word that matches no pattern: its only effect is the PC advance (R63). -/
def execUnmatched (s : State) : Result := .next s

/-- RET (R72). -/
def execRet (s : State) : Result :=
  if h : s.sp.val = 0 then .next (s.raise ⟨.stackUnderflow, 0x0000⟩) else .next (s.popPc h)

/-- JP nnn (R73). -/
def execJp (nnn : Addr12) (s : State) : Result := .next (s.setPc (zextAddr nnn))

/-- CALL nnn: the pushed value is PC, the instruction's address plus 2 (R74). -/
def execCall (nnn : Addr12) (s : State) : Result :=
  if h : s.sp.val = 16 then .next (s.raise ⟨.stackOverflow, zextAddr nnn⟩)
  else .next ((s.push s.pc h).setPc (zextAddr nnn))

/-- SE Vx, kk (R75). -/
def execSeImm (x : Reg) (kk : Byte) (s : State) : Result := .next (s.skipIf (s.v[x] == kk))

/-- SNE Vx, kk (R76). -/
def execSneImm (x : Reg) (kk : Byte) (s : State) : Result := .next (s.skipIf (s.v[x] != kk))

/-- SE Vx, Vy: the values are compared (R77). -/
def execSeReg (x y : Reg) (s : State) : Result := .next (s.skipIf (s.v[x] == s.v[y]))

/-- SNE Vx, Vy: the indices or the values are compared, by `SNE_REG_COMPARE` (R78). -/
def execSneReg (x y : Reg) (s : State) : Result :=
  match s.config.sneCompare with
  | .indexNe => .next (s.skipIf (x != y))
  | .valueNe => .next (s.skipIf (s.v[x] != s.v[y]))

/-- JP V0, nnn: a 16-bit sum, not truncated to 12 bits (R79). -/
def execJpV0 (nnn : Addr12) (s : State) : Result := .next (s.setPc (zext16 s.v[0] + zextAddr nnn))

end Sys2Proof.Machine
end

