-- ==== Sys2Proof/Machine/Display.lean ====
section
/-! DEFINITION. spec/43_display.md: CLS and DRW. The drawing loops are those of R105's pseudocode; what has been drawn and
whether a collision has been counted are carried along. -/

namespace Sys2Proof.Machine

/-- One sprite bit: a clear bit, or a bit that lands off the screen, does nothing; a set bit toggles its pixel, and counts as
a collision if the pixel was ON and the mode counts its column (R101, R102, R103). -/
def drawBit (mode : DrawCollision) (b : Byte) (px0 py c : Nat) (d : FrameBuffer × Bool) : FrameBuffer × Bool :=
  if spriteBit b c ∧ px0 + c < 64 ∧ py < 32 then
    (d.1.toggle (px0 + c) py, d.2 || (d.1.pixel (px0 + c) py && collisionCounts mode c))
  else d

/-- One row: columns 0 to 7 (R105). -/
def drawRow (mode : DrawCollision) (b : Byte) (px0 py : Nat) (d : FrameBuffer × Bool) : FrameBuffer × Bool :=
  (List.range 8).foldl (fun acc c => drawBit mode b px0 py c acc) d

/-- The rows, one below the other (R105). -/
def drawRows (mode : DrawCollision) (px0 : Nat) : Nat → List Byte → FrameBuffer × Bool → FrameBuffer × Bool
  | _, [], d => d
  | py, b :: bs, d => drawRows mode px0 (py + 1) bs (drawRow mode b px0 py d)

/-- A sprite drawn at an origin: the framebuffer after it, and whether a collision counted (R105). -/
def drawSprite (mode : DrawCollision) (rows : List Byte) (px0 py0 : Nat) (fb : FrameBuffer) : FrameBuffer × Bool :=
  drawRows mode px0 py0 rows (fb, false)

/-- CLS: VF is not changed (R104). -/
def execCls (s : State) : Result := .next (s.setFb FrameBuffer.blank)

/-- DRW Vx, Vy, n: all n bytes are read and checked first; VF is written on every draw, from the old Vx and Vy (R105). -/
def execDrw (x y : Reg) (n : Height) (s : State) : Result :=
  orRaise s (s.spriteRows n) fun rows =>
    let d := drawSprite s.config.drawCollision rows (s.originColumn x) (s.originRow y) s.fb
    (s.setFb d.1).setV vf (flagByte d.2)

end Sys2Proof.Machine
end

