-- ==== Sys2Proof/Machine/IndexMemory.lean ====
section
/-! DEFINITION. spec/42_index_memory.md: the index register, and the loads and stores through it. No instruction modifies I
before or after an access. -/

namespace Sys2Proof.Machine

/-- LD I, nnn (R95). -/
def execLdI (nnn : Addr12) (s : State) : Result := .next (s.setIndex (zextAddr nnn))

/-- ADD I, Vx: no flag; a sum past 0xFFFF faults (R96). -/
def execAddI (x : Reg) (s : State) : Result := orRaise s (s.indexSum x) fun w => s.setIndex w

/-- LD F, Vx (R97). -/
def execLdF (x : Reg) (s : State) : Result := .next (s.setIndex (glyphAddr s.v[x]))

/-- LD B, Vx: three digits at I, I+1, I+2 (R98). -/
def execLdB (x : Reg) (s : State) : Result :=
  orRaise s (memWrite s (s.indexAddr 0) (decimalDigits s.v[x])) fun t => t

/-- LD [I], Vx: V0 to Vx from I up (R99). -/
def execStoreRegs (x : Reg) (s : State) : Result :=
  orRaise s (memWrite s (s.indexAddr 0) (s.regsUpTo x)) fun t => t

/-- LD Vx, [I]: V0 to Vx from I up (R100). -/
def execLoadRegs (x : Reg) (s : State) : Result :=
  orRaise s (memRead s (s.indexAddr 0) (x.val + 1)) fun bytes => s.setRegsUpTo x bytes

end Sys2Proof.Machine
end

