-- ==== Sys2Proof/Machine/KeypadTimers.lean ====
section
/-! DEFINITION. spec/44_keypad_timers.md: the key tests, the wait for a key, and the timers' reads and writes. -/

namespace Sys2Proof.Machine

/-- SKP Vx (R106). -/
def execSkp (x : Reg) (s : State) : Result := orRaise s (s.keyOperand x) fun k => s.skipIf s.keys[k]

/-- SKNP Vx (R107). -/
def execSknp (x : Reg) (s : State) : Result := orRaise s (s.keyOperand x) fun k => s.skipIf (!s.keys[k])

/-- LD Vx, DT (R108). -/
def execLdVxDt (x : Reg) (s : State) : Result := .next (s.setV x s.dt)

/-- LD Vx, K: the lowest pressed key, or PC back by 2 so that the instruction runs again (R109). -/
def execLdVxKey (x : Reg) (s : State) : Result :=
  match s.lowestKey with
  | some k => .next (s.setV x (BitVec.ofNat 8 k.val))
  | none => .next (s.setPc (s.pc - 2))

/-- LD DT, Vx (R110). -/
def execLdDtVx (x : Reg) (s : State) : Result := .next (s.setDt s.v[x])

/-- LD ST, Vx (R111). -/
def execLdStVx (x : Reg) (s : State) : Result := .next (s.setSt s.v[x])

end Sys2Proof.Machine
end

