-- ==== Sys2Proof/Machine/Cycle.lean ====
section
/-! DEFINITION. The cycle (spec/30_encoding.md R56 to R58): fetch, advance PC, decode, execute, around `exec`. Also where an
opcode is placed so that the next cycle runs it. -/

namespace Sys2Proof.Machine

/-- The fetch: the bytes at PC and PC+1, big-endian; past 0xFFF it reads nothing and is FETCH_RANGE (R57). -/
def fetch (s : State) : Except FaultRaise Word :=
  if s.pc.toNat + 1 > 0xFFF then .error ⟨.fetchRange, rangeInfo s.pc.toNat⟩
  else .ok (joinBytes (s.readByte s.pc.toNat) (s.readByte (s.pc.toNat + 1)))

/-- `PC <- pc0 + 2`, before dispatch (R58), with the fetched word in the opcode latch (R27). -/
def State.beginCycle (s : State) (op : Word) : State := { s with pc := s.pc + 2, opcode := op }

/-- The end of a cycle: the opcode latch is "not part of persistent state" (R27), so it goes back to 0. -/
def State.endCycle (s : State) : State := { s with opcode := 0x0000 }

/-- Execute(h, op, rand): the handler that Decode selected (R64). -/
def execHandler (h : Handler) (s : State) : Result :=
  match h with
  | .instr i => exec i s
  | .unmatched => execUnmatched s

/-- What a handler answers, seen at the end of the cycle. -/
def endOf (r : Result) : Result :=
  match r with
  | .next t => .next t.endCycle
  | .fault f => .fault f
  | .refused f => .refused f

/-- One cycle (R56). A faulted core does nothing (R116); a failed fetch executes no instruction (R57, R117). The byte `rand`
is the state's (`State.randByte`). -/
def runCycle (s : State) : Result :=
  if s.faulted then .next s
  else
    match fetch s with
    | .error r => endOf (.next (s.takeFault r s.pc 0x0000))
    | .ok op => endOf (execHandler (decode s.config.subDecode op) (s.beginCycle op))

/-- A state whose next cycle fetches: where the core is faulted the fault is cleared, and where PC cannot be fetched from, PC
is the entry point 0x200 (R136). Any other state is left as it is. -/
def State.readyToFetch (s : State) : State :=
  let t := if s.faulted then s.clearFault else s
  if t.pc.toNat + 1 > 0xFFF then t.setPc 0x0200 else t

/-- An opcode stored where the next cycle fetches, high byte first (R41, R57). -/
def State.placeOpcode (s : State) (op : Word) : State :=
  s.readyToFetch.storeBytes s.readyToFetch.pc.toNat (wordBytes op)

end Sys2Proof.Machine
end

