-- ==== Sys2Proof/Machine/Transactions.lean ====
section
/-! DEFINITION. The host interface (spec/60_exceptions.md R129): the seven atomic transactions, each run to completion before
the next begins (R130). -/

namespace Sys2Proof.Machine

/-- The transactions of R129 with their inputs. -/
inductive Transaction where
  | reset
  | loadRom (bytes : List Byte)
  | cycle (rand : Byte)
  | tick
  | keyWrite (k : Key) (pressed : Bool)
  | fbRead
  | statusRead
  deriving DecidableEq, Repr

/-- What `StatusRead()` returns (R129). -/
structure FaultStatus where
  faulted : Bool
  cause : Byte
  pc : Word
  opcode : Word
  info : Word
  deriving DecidableEq, Repr

/-- The outputs of the transactions (R129). -/
inductive Reply where
  | none
  | accepted
  | refused
  | frame (words : List PixelWord)
  | status (st : FaultStatus)
  deriving DecidableEq, Repr

/-- `Reset()`: a fresh core of the same configuration (R135, D29). The count of random bytes goes on, so that a fresh core
does not see the bytes of the one before it again. -/
def resetCore (s : State) : State := { State.resetWith s.config with randCount := s.randCount }

/-- `LoadROM(bytes)`: accepted and copied from 0x200 up, or refused with no state change when longer than 0xE00 (R137). -/
def loadRom (bytes : List Byte) (s : State) : Reply × State :=
  if bytes.length > 0xE00 then (.refused, s) else (.accepted, s.storeBytes 0x200 bytes)

/-- The end of `Cycle(rand)`: an instruction that is not RND ignored the byte (R128), and nothing is pending after it (R32). -/
def State.dropRand (s : State) : State := { s with randIn := Option.none }

/-- `Cycle(rand)` (R56): a step with the host's byte as its `rand`. -/
def cycle (rand : Byte) (s : State) : Result :=
  match step { s with randIn := some rand } with
  | .next t => .next t.dropRand
  | .fault f => .fault f
  | .refused f => .refused f

/-- A timer one down, or at 0 where it stays (R124). -/
def countDown (b : Byte) : Byte := if b.toNat > 0 then b - 1 else b

/-- `Tick()` (R124); it works in the faulted state too (R116). -/
def tick (s : State) : State := { s with dt := countDown s.dt, st := countDown s.st }

/-- `KeyWrite(k, b)` (R126). -/
def keyWrite (k : Key) (pressed : Bool) (s : State) : State := { s with keys := s.keys.set k pressed }

/-- `FBRead()` (R127). -/
def fbRead (s : State) : List PixelWord := s.fb.words

/-- `StatusRead()` (R129). -/
def statusRead (s : State) : FaultStatus := ⟨s.faulted, s.faultCause, s.faultPc, s.faultOpcode, s.faultInfo⟩

/-- A transaction: its reply and the state after it (R129). -/
def transact (t : Transaction) (s : State) : Host.Outcome (Reply × State) Fault Refusal :=
  match t with
  | .reset => .next (.none, resetCore s)
  | .loadRom bytes => .next (loadRom bytes s)
  | .cycle rand =>
    match cycle rand s with
    | .next u => .next (.none, u)
    | .fault f => .fault f
    | .refused f => .refused f
  | .tick => .next (.none, tick s)
  | .keyWrite k pressed => .next (.none, keyWrite k pressed s)
  | .fbRead => .next (.frame (fbRead s), s)
  | .statusRead => .next (.status (statusRead s), s)

/-- A finite sequence of transactions in the order issued (R130, R133): the replies and the state after them. -/
def transactAll : List Transaction → State → Host.Outcome (List Reply × State) Fault Refusal
  | [], s => .next ([], s)
  | t :: ts, s =>
    match transact t s with
    | .next (r, u) =>
      match transactAll ts u with
      | .next (rs, w) => .next (r :: rs, w)
      | .fault f => .fault f
      | .refused f => .refused f
    | .fault f => .fault f
    | .refused f => .refused f

end Sys2Proof.Machine
end

