-- ==== Sys2Proof/Safety.lean ====
section
/-! DEFINITION. What counts as a safe run, in the terms claims use: the invariant of spec/10_state.md R31 in the form a cycle
keeps, the states a machine can reach (R138), a state with no fault recorded (spec/60_exceptions.md R112), the words of the
opcode map as numbers, and which instructions write what (R14, R26, R34). -/

namespace Sys2Proof.Machine

/-! ### States -/

/-- "no fault recorded" (R112), the premise of a claim that a program runs correctly. -/
abbrev State.NoFault (s : State) : Prop := s.faulted = false

/-- The invariant. R31 (a) and (b) are in the types of `sp` and `fb`; (c), (d) and (e) stand here. A stack slot holds a PC that
CALL pushed, at most 0x0FFE + 2, which (c) needs for RET. Memory is in canonical form. Nothing is in flight between
transactions (R32): the opcode latch is 0 and no random byte waits. -/
abbrev State.Legal (s : State) : Prop :=
  s.pc.toNat ≤ 0x10FE ∧
  (∀ k : Fin 16, s.stack[k].toNat ≤ 0x1000) ∧
  (s.faulted = false → s.faultCause = 0) ∧
  (s.faulted = true → 1 ≤ s.faultCause.toNat ∧ s.faultCause.toNat ≤ 7) ∧
  Memory.WF s.config.font s.mem ∧
  s.opcode = 0 ∧
  s.randIn = none

/-- A state that some finite sequence of transactions reaches from `Reset()`, on a machine of any configuration (R133, R138). -/
def State.Reachable (s : State) : Prop :=
  ∃ (c : Config) (ts : List Transaction) (rs : List Reply), transactAll ts (State.resetWith c) = .next (rs, s)

/-- The word at PC, as a number: the byte at the lower address is the high one (R41). -/
def State.wordAtPc (s : State) : Nat :=
  (s.readByte s.pc.toNat).toNat * 256 + (s.readByte (s.pc.toNat + 1)).toNat

/-- The state a handler leaves when it raises a fault with the given code and info (R115): PC, which is the instruction's
address plus 2 while a handler runs (R58), is back at that address, and the five fault status registers are written. -/
def State.withFault (s : State) (code : Byte) (info : Word) : State :=
  { s with
    pc := s.pc - 2
    faulted := true
    faultCause := code
    faultPc := s.pc - 2
    faultOpcode := s.opcode
    faultInfo := info }

/-- `t` is `s` after a result and a flag were written (R82): Vx and VF are written, in the order `VF_AS_DEST` sets where they
are one register, and nothing else is. -/
def State.ResultAndFlag (s t : State) (x : Reg) (result flag : Byte) : Prop :=
  t = { s with v := t.v } ∧
  (∀ j : Reg, j ≠ x → j ≠ vf → t.v[j] = s.v[j]) ∧
  (x ≠ vf → t.v[x] = result ∧ t.v[vf] = flag) ∧
  (x = vf → t.v[vf] = if s.config.vfAsDest = .flagLast then flag else result)

/-- Row r, column c of the sprite at I is a set bit, the most significant bit leftmost (R101), and lands on the pixel
(px, py) of the screen, the origin being (Vx mod 64, Vy mod 32) (R102). -/
def State.SpriteBitAt (s : State) (x y : Reg) (r c px py : Nat) : Prop :=
  (s.readByte (s.index.toNat + r)).getLsbD (7 - c) = true ∧
  px = s.v[x].toNat % 64 + c ∧ py = s.v[y].toNat % 32 + r ∧ px < 64 ∧ py < 32

/-- A column's set bits count for a collision (R103). -/
def State.Counts (s : State) (c : Nat) : Prop := s.config.drawCollision = .perBit ∨ c = 7

/-! ### Words of the opcode map (R54, R65), as numbers -/

/-- The pattern `onnn`. -/
def wordNNN (o : Nat) (nnn : Addr12) : Word := BitVec.ofNat 16 (o * 4096 + nnn.toNat)

/-- The pattern `oxkk`. -/
def wordXKK (o : Nat) (x : Reg) (kk : Nat) : Word := BitVec.ofNat 16 (o * 4096 + x.val * 256 + kk)

/-- The pattern `oxyn`. -/
def wordXYN (o : Nat) (x y : Reg) (n : Nat) : Word := BitVec.ofNat 16 (o * 4096 + x.val * 256 + y.val * 16 + n)

/-- The word runs the instruction, whatever `SUBDECODE_0E` is. -/
def Runs (w : Word) (i : Instr) : Prop := ∀ sub : SubDecode, decode sub w = .instr i

/-! ### Which instructions read and write what -/

/-- The general registers an instruction reads (R14). -/
def readsReg (cfg : Config) (i : Instr) (r : Reg) : Bool :=
  match i with
  | .seImm x _ | .sneImm x _ | .addImm x _ | .shr x _ | .shl x _ | .skp x | .sknp x | .ldDtVx x | .ldStVx x | .addI x
  | .ldF x | .ldB x => r == x
  | .seReg x y | .orReg x y | .andReg x y | .xorReg x y | .addReg x y | .subReg x y | .subn x y
  | .drw x y _ => r == x || r == y
  | .sneReg x y => cfg.sneCompare == .valueNe && (r == x || r == y)
  | .ldReg _ y => r == y
  | .jpV0 _ => r == 0
  | .storeRegs x => decide (r ≤ x)
  | .cls | .ret | .sys _ | .jp _ | .call _ | .ldImm _ _ | .ldI _ | .rnd _ _ | .ldVxDt _ | .ldVxKey _
  | .loadRegs _ => false

/-- The general registers an instruction writes (R14). -/
def writesReg (i : Instr) (r : Reg) : Bool :=
  match i with
  | .ldImm x _ | .addImm x _ | .ldReg x _ | .orReg x _ | .andReg x _ | .xorReg x _ | .rnd x _ | .ldVxDt x
  | .ldVxKey x => r == x
  | .addReg x _ | .subReg x _ | .subn x _ | .shr x _ | .shl x _ => r == x || r == vf
  | .drw _ _ _ => r == vf
  | .loadRegs x => decide (r ≤ x)
  | .cls | .ret | .sys _ | .jp _ | .call _ | .seImm _ _ | .sneImm _ _ | .seReg _ _ | .sneReg _ _ | .ldI _ | .jpV0 _
  | .skp _ | .sknp _ | .ldDtVx _ | .ldStVx _ | .addI _ | .ldF _ | .ldB _ | .storeRegs _ => false

/-- The registers that are not general registers, the framebuffer, and the model's own count of random bytes. -/
inductive Special where
  | index
  | pc
  | sp
  | stack
  | dt
  | st
  | fb
  | rand
  deriving DecidableEq, Repr

/-- The special state a handler writes, PC's advance apart (R22, R26). -/
def writesSpecial (i : Instr) (p : Special) : Bool :=
  match i with
  | .ldI _ | .addI _ | .ldF _ => p == .index
  | .jp _ | .jpV0 _ | .seImm _ _ | .sneImm _ _ | .seReg _ _ | .sneReg _ _ | .skp _ | .sknp _ | .ldVxKey _ => p == .pc
  | .call _ => p == .pc || p == .sp || p == .stack
  | .ret => p == .pc || p == .sp
  | .ldDtVx _ => p == .dt
  | .ldStVx _ => p == .st
  | .cls | .drw _ _ _ => p == .fb
  | .rnd _ _ => p == .rand
  | .sys _ | .ldImm _ _ | .addImm _ _ | .ldReg _ _ | .orReg _ _ | .andReg _ _ | .xorReg _ _ | .addReg _ _
  | .subReg _ _ | .subn _ _ | .shr _ _ | .shl _ _ | .ldVxDt _ | .ldB _ | .storeRegs _ | .loadRegs _ => false

/-- How many bytes an instruction stores, the first of them at the address I (R34, R43). -/
def storedBytes (i : Instr) : Nat :=
  match i with
  | .ldB _ => 3
  | .storeRegs x => x.val + 1
  | .cls | .ret | .sys _ | .jp _ | .call _ | .seImm _ _ | .sneImm _ _ | .seReg _ _ | .ldImm _ _ | .addImm _ _
  | .ldReg _ _ | .orReg _ _ | .andReg _ _ | .xorReg _ _ | .addReg _ _ | .subReg _ _ | .shr _ _ | .subn _ _ | .shl _ _
  | .sneReg _ _ | .ldI _ | .jpV0 _ | .rnd _ _ | .drw _ _ _ | .skp _ | .sknp _ | .ldVxDt _ | .ldVxKey _ | .ldDtVx _
  | .ldStVx _ | .addI _ | .ldF _ | .loadRegs _ => 0

/-- The code and the info of the fault a handler raises in a state, none where it raises none (R113, rows 2 to 7). -/
def raises (i : Instr) (s : State) : Option (Nat × Nat) :=
  match i with
  | .call nnn => if s.sp.val = 16 then some (2, nnn.toNat) else none
  | .ret => if s.sp.val = 0 then some (3, 0) else none
  | .drw _ _ n =>
    if n.val > 0 ∧ s.index.toNat + n.val - 1 > 0xFFF then some (4, max s.index.toNat 0x1000) else none
  | .loadRegs x => if s.index.toNat + (x.val + 1) - 1 > 0xFFF then some (4, max s.index.toNat 0x1000) else none
  | .ldB _ => if s.index.toNat + 3 - 1 > 0xFFF then some (5, max s.index.toNat 0x1000) else none
  | .storeRegs x => if s.index.toNat + (x.val + 1) - 1 > 0xFFF then some (5, max s.index.toNat 0x1000) else none
  | .skp x | .sknp x => if s.v[x].toNat > 0xF then some (6, s.v[x].toNat) else none
  | .addI x => if s.index.toNat + s.v[x].toNat > 0xFFFF then some (7, s.v[x].toNat) else none
  | .cls | .sys _ | .jp _ | .seImm _ _ | .sneImm _ _ | .seReg _ _ | .ldImm _ _ | .addImm _ _ | .ldReg _ _
  | .orReg _ _ | .andReg _ _ | .xorReg _ _ | .addReg _ _ | .subReg _ _ | .shr _ _ | .subn _ _ | .shl _ _ | .sneReg _ _
  | .ldI _ | .jpV0 _ | .rnd _ _ | .ldVxDt _ | .ldVxKey _ | .ldDtVx _ | .ldStVx _ | .ldF _ => none

end Sys2Proof.Machine
end

