-- ==== Sys2Proof/Certificates/Slice0/Obligations.lean ====
section
/-! DEFINITION. The statements for the provers, spread over the rules of spec/: decoding and the cycle, each instruction's
effect, taking a fault, the frames, the host's transactions, and the invariant. In a statement about `exec`, PC is already the
instruction's address plus 2 and the opcode latch holds its word (R58). `t = { s with f := t.f }` says that only the field f
differs. -/

open Sys2Proof Sys2Proof.Machine

/-! ### Encoding -/

/-- R54, R65: no bit of an operand is lost in the encoding, for every instruction and both values of `SUBDECODE_0E`. -/
def Obligations.DecodeOfEncodeGivesTheInstruction : Prop :=
  ∀ (sub : SubDecode) (i : Instr), i.wellFormed sub = true → decode sub (encode i) = .instr i

/-- R59, R60, R71: what the decoder answers is well-formed, and outside the groups with ignored bits the word is the
instruction's own; in groups 5 and 9 it is so but for the ignored low nibble. -/
def Obligations.DecodedInstructionIsWellFormedAndReencodes : Prop :=
  ∀ (sub : SubDecode) (w : Word) (i : Instr), decode sub w = .instr i →
    i.wellFormed sub = true ∧
    (w.toNat / 4096 ∉ [0x0, 0x5, 0x9, 0xE] → encode i = w) ∧
    (w.toNat / 4096 ∈ [0x5, 0x9] → (encode i).toNat = w.toNat / 16 * 16)

/-- R60, the table: groups 0x0 and 0xE under both values of `SUBDECODE_0E`. -/
def Obligations.GroupsZeroAndEFollowSubdecode : Prop :=
  ∀ w : Word,
    (w.toNat / 4096 = 0x0 →
      decode .lowByte w = .instr (if w.toNat % 256 = 0xE0 then .cls else if w.toNat % 256 = 0xEE then .ret
        else .sys (BitVec.ofNat 12 w.toNat)) ∧
      decode .lowNibble w = .instr (if w.toNat % 16 = 0x0 then .cls else if w.toNat % 16 = 0xE then .ret
        else .sys (BitVec.ofNat 12 w.toNat))) ∧
    (w.toNat / 4096 = 0xE →
      decode .lowByte w = (if w.toNat % 256 = 0x9E then .instr (.skp (Fin.ofNat 16 (w.toNat / 256)))
        else if w.toNat % 256 = 0xA1 then .instr (.sknp (Fin.ofNat 16 (w.toNat / 256))) else .unmatched) ∧
      decode .lowNibble w = (if w.toNat % 16 = 0xE then .instr (.skp (Fin.ofNat 16 (w.toNat / 256)))
        else if w.toNat % 16 = 0x1 then .instr (.sknp (Fin.ofNat 16 (w.toNat / 256))) else .unmatched))

/-- R63: exactly these words are unmatched, and a cycle that fetches one only advances PC. -/
def Obligations.UnmatchedWordsAreNoOps : Prop :=
  (∀ (sub : SubDecode) (w : Word), decode sub w = .unmatched ↔
    (w.toNat / 4096 = 0x8 ∧ w.toNat % 16 ∈ [0x8, 0x9, 0xA, 0xB, 0xC, 0xD, 0xF]) ∨
    (w.toNat / 4096 = 0xE ∧ match sub with
      | .lowByte => w.toNat % 256 ∉ [0x9E, 0xA1]
      | .lowNibble => w.toNat % 16 ∉ [0xE, 0x1]) ∨
    (w.toNat / 4096 = 0xF ∧ w.toNat % 256 ∉ [0x07, 0x0A, 0x15, 0x18, 0x1E, 0x29, 0x33, 0x55, 0x65])) ∧
  (∀ s : State, s.NoFault → s.pc.toNat ≤ 0xFFE →
    decode s.config.subDecode (BitVec.ofNat 16 s.wordAtPc) = .unmatched →
    step s = .next { s with pc := s.pc + 2, opcode := 0 })

/-- R65: a few words written out from the opcode map run the instruction they stand for. -/
def Obligations.HandSpelledWordsDecode : Prop :=
  Runs 0x00E0 .cls ∧ Runs 0x1234 (.jp 0x234) ∧ Runs 0x5AB7 (.seReg 0xA 0xB) ∧ Runs 0x8ABE (.shl 0xA 0xB) ∧
  Runs 0xA22A (.ldI 0x22A) ∧ Runs 0xD125 (.drw 1 2 5) ∧ Runs 0xE7A1 (.sknp 7) ∧ Runs 0xFC65 (.loadRegs 0xC)

/-! ### The cycle -/

/-- R58, with R56: a step runs the handler of the decoded instruction on the state with PC advanced by 2 (the sum does not
overflow) and the word in the opcode latch, and clears the latch after it. -/
def Obligations.StepRunsTheDecodedInstruction : Prop :=
  ∀ (s : State) (i : Instr), s.NoFault → s.pc.toNat ≤ 0xFFE →
    decode s.config.subDecode (BitVec.ofNat 16 s.wordAtPc) = .instr i →
    (s.pc + 2).toNat = s.pc.toNat + 2 ∧
    ∃ t, exec i { s with pc := s.pc + 2, opcode := BitVec.ofNat 16 s.wordAtPc } = .next t ∧
      step s = .next { t with opcode := 0 }

/-- R57: the fetch composes the bytes at PC and PC+1 high byte first, for any PC, even or odd; at PC ≥ 0xFFF the cycle raises
FETCH_RANGE and changes nothing but the fault status registers. -/
def Obligations.FetchIsBigEndianAndRangeChecked : Prop :=
  ∀ s : State,
    (s.pc.toNat ≤ 0xFFE → fetch s = .ok (BitVec.ofNat 16
      ((s.readByte s.pc.toNat).toNat * 256 + (s.readByte (s.pc.toNat + 1)).toNat))) ∧
    (s.pc.toNat ≥ 0xFFF → s.NoFault →
      step s = .next { s with
        faulted := true
        faultCause := 1
        faultPc := s.pc
        faultOpcode := 0
        faultInfo := BitVec.ofNat 16 (max s.pc.toNat 0x1000)
        opcode := 0 })

/-- R66, R70, R144: nothing is refused and nothing stops the machine; every handler, every step and every transaction ends in
a next state. -/
def Obligations.EveryHandlerStepAndTransactionCompletes : Prop :=
  (∀ (i : Instr) (s : State), ∃ t, exec i s = .next t) ∧
  (∀ s : State, ∃ t, step s = .next t) ∧
  (∀ (tr : Transaction) (s : State), ∃ p, transact tr s = .next p)

/-! ### Control flow -/

/-- R71, R60: a group 0 word that is neither CLS nor RET runs SYS, which does nothing. -/
def Obligations.SysDoesNothing : Prop :=
  ∀ (sub : SubDecode) (nnn : Addr12) (s : State), (Instr.sys nnn).wellFormed sub = true →
    decode sub (wordNNN 0x0 nnn) = .instr (.sys nnn) ∧ exec (.sys nnn) s = .next s

/-- R72. -/
def Obligations.RetPopsTheReturnAddress : Prop :=
  Runs 0x00EE .ret ∧
  ∀ s : State,
    (s.sp.val = 0 → exec .ret s = .next (s.withFault 3 0x0000)) ∧
    (∀ k : Fin 16, s.sp.val = k.val + 1 →
      ∃ t, exec .ret s = .next t ∧ t.sp.val = k.val ∧ t.pc = s.stack[k] ∧ t = { s with sp := t.sp, pc := t.pc })

/-- R73, R79: the target of JP V0 is the exact sum, at most 0x10FE, and the register is V0 whatever op[11:8] holds. -/
def Obligations.JumpsSetPc : Prop :=
  ∀ (s : State) (nnn : Addr12),
    (Runs (wordNNN 0x1 nnn) (.jp nnn) ∧
      ∃ t, exec (.jp nnn) s = .next t ∧ t.pc.toNat = nnn.toNat ∧ t = { s with pc := t.pc }) ∧
    (Runs (wordNNN 0xB nnn) (.jpV0 nnn) ∧
      ∃ t, exec (.jpV0 nnn) s = .next t ∧ t.pc.toNat = s.v[0].toNat + nnn.toNat ∧ t.pc.toNat ≤ 0x10FE ∧
        t = { s with pc := t.pc })

/-- R74: the pushed value is PC, the CALL's address plus 2. -/
def Obligations.CallPushesTheReturnAddress : Prop :=
  ∀ (s : State) (nnn : Addr12),
    Runs (wordNNN 0x2 nnn) (.call nnn) ∧
    (s.sp.val = 16 → exec (.call nnn) s = .next (s.withFault 2 (nnn.setWidth 16))) ∧
    (∀ k : Fin 16, s.sp.val = k.val →
      ∃ t, exec (.call nnn) s = .next t ∧ t.stack[k] = s.pc ∧ (∀ j : Fin 16, j ≠ k → t.stack[j] = s.stack[j]) ∧
        t.sp.val = k.val + 1 ∧ t.pc.toNat = nnn.toNat ∧
        t = { s with stack := t.stack, sp := t.sp, pc := t.pc })

/-- R72, R74, R19: after a CALL and any change of PC, RET resumes after the CALL with SP as it was. -/
def Obligations.ReturnUndoesCall : Prop :=
  ∀ (s : State) (nnn : Addr12) (p : Word), s.sp.val < 16 →
    ∃ t u, exec (.call nnn) s = .next t ∧ exec .ret { t with pc := p } = .next u ∧ u.pc = s.pc ∧ u.sp = s.sp ∧
      u = { s with stack := t.stack }

/-- R75, R76. -/
def Obligations.ImmediateSkips : Prop :=
  ∀ (s : State) (x : Reg) (kk : Byte),
    Runs (wordXKK 0x3 x kk.toNat) (.seImm x kk) ∧
    exec (.seImm x kk) s = .next { s with pc := if s.v[x].toNat = kk.toNat then s.pc + 2 else s.pc } ∧
    Runs (wordXKK 0x4 x kk.toNat) (.sneImm x kk) ∧
    exec (.sneImm x kk) s = .next { s with pc := if s.v[x].toNat = kk.toNat then s.pc else s.pc + 2 }

/-- R77, R78: for every low nibble n of the word, and both values of `SNE_REG_COMPARE`. -/
def Obligations.RegisterSkips : Prop :=
  ∀ (s : State) (x y : Reg) (n : Fin 16),
    Runs (wordXYN 0x5 x y n.val) (.seReg x y) ∧
    exec (.seReg x y) s = .next { s with pc := if s.v[x].toNat = s.v[y].toNat then s.pc + 2 else s.pc } ∧
    Runs (wordXYN 0x9 x y n.val) (.sneReg x y) ∧
    (s.config.sneCompare = .indexNe →
      exec (.sneReg x y) s = .next { s with pc := if x = y then s.pc else s.pc + 2 }) ∧
    (s.config.sneCompare = .valueNe →
      exec (.sneReg x y) s = .next { s with pc := if s.v[x].toNat = s.v[y].toNat then s.pc else s.pc + 2 })

/-! ### Registers and arithmetic -/

/-- R83, R84: the result wraps modulo 256 and no flag is written. -/
def Obligations.ImmediateLoadAndAdd : Prop :=
  ∀ (s : State) (x : Reg) (kk : Byte),
    (Runs (wordXKK 0x6 x kk.toNat) (.ldImm x kk) ∧
      ∃ t, exec (.ldImm x kk) s = .next t ∧ t.v[x] = kk ∧ (∀ r : Reg, r ≠ x → t.v[r] = s.v[r]) ∧
        t = { s with v := t.v }) ∧
    (Runs (wordXKK 0x7 x kk.toNat) (.addImm x kk) ∧
      ∃ t, exec (.addImm x kk) s = .next t ∧ t.v[x].toNat = (s.v[x].toNat + kk.toNat) % 256 ∧
        (∀ r : Reg, r ≠ x → t.v[r] = s.v[r]) ∧ t = { s with v := t.v })

/-- R85, R86, R87, R88, bit by bit. -/
def Obligations.CopyAndLogic : Prop :=
  ∀ (s : State) (x y : Reg),
    (Runs (wordXYN 0x8 x y 0x0) (.ldReg x y) ∧
      ∃ t, exec (.ldReg x y) s = .next t ∧ t.v[x] = s.v[y] ∧ (∀ r : Reg, r ≠ x → t.v[r] = s.v[r]) ∧
        t = { s with v := t.v }) ∧
    (Runs (wordXYN 0x8 x y 0x1) (.orReg x y) ∧
      ∃ t, exec (.orReg x y) s = .next t ∧
        (∀ k < 8, t.v[x].getLsbD k = (s.v[x].getLsbD k || s.v[y].getLsbD k)) ∧
        (∀ r : Reg, r ≠ x → t.v[r] = s.v[r]) ∧ t = { s with v := t.v }) ∧
    (Runs (wordXYN 0x8 x y 0x2) (.andReg x y) ∧
      ∃ t, exec (.andReg x y) s = .next t ∧
        (∀ k < 8, t.v[x].getLsbD k = (s.v[x].getLsbD k && s.v[y].getLsbD k)) ∧
        (∀ r : Reg, r ≠ x → t.v[r] = s.v[r]) ∧ t = { s with v := t.v }) ∧
    (Runs (wordXYN 0x8 x y 0x3) (.xorReg x y) ∧
      ∃ t, exec (.xorReg x y) s = .next t ∧
        (∀ k < 8, t.v[x].getLsbD k = (s.v[x].getLsbD k != s.v[y].getLsbD k)) ∧
        (∀ r : Reg, r ≠ x → t.v[r] = s.v[r]) ∧ t = { s with v := t.v })

/-- R89, R82: the carry is the unreduced sum exceeding 255, both operands being read before either write. -/
def Obligations.AddWritesSumAndCarry : Prop :=
  ∀ (s : State) (x y : Reg),
    Runs (wordXYN 0x8 x y 0x4) (.addReg x y) ∧
    ∃ t, exec (.addReg x y) s = .next t ∧
      s.ResultAndFlag t x (s.v[x] + s.v[y]) (if s.v[x].toNat + s.v[y].toNat > 255 then 1 else 0)

/-- R90, R92, R82: the flag is not-borrow, minuend ≥ subtrahend. -/
def Obligations.SubtractionsWriteDifferenceAndNotBorrow : Prop :=
  ∀ (s : State) (x y : Reg),
    (Runs (wordXYN 0x8 x y 0x5) (.subReg x y) ∧
      ∃ t, exec (.subReg x y) s = .next t ∧
        s.ResultAndFlag t x (s.v[x] - s.v[y]) (if s.v[x].toNat ≥ s.v[y].toNat then 1 else 0)) ∧
    (Runs (wordXYN 0x8 x y 0x7) (.subn x y) ∧
      ∃ t, exec (.subn x y) s = .next t ∧
        s.ResultAndFlag t x (s.v[y] - s.v[x]) (if s.v[y].toNat ≥ s.v[x].toNat then 1 else 0))

/-- R91, R93, R82: the bit shifted out is the flag; y plays no part. -/
def Obligations.ShiftsWriteTheBitShiftedOut : Prop :=
  ∀ (s : State) (x y : Reg),
    (Runs (wordXYN 0x8 x y 0x6) (.shr x y) ∧
      ∃ t, exec (.shr x y) s = .next t ∧
        s.ResultAndFlag t x (BitVec.ofNat 8 (s.v[x].toNat / 2)) (BitVec.ofNat 8 (s.v[x].toNat % 2))) ∧
    (Runs (wordXYN 0x8 x y 0xE) (.shl x y) ∧
      ∃ t, exec (.shl x y) s = .next t ∧
        s.ResultAndFlag t x (BitVec.ofNat 8 (2 * s.v[x].toNat)) (BitVec.ofNat 8 (s.v[x].toNat / 128)))

/-- R15: a flag is 0 or 1, wherever VF ends as the flag. -/
def Obligations.FlagsAreZeroOrOne : Prop :=
  ∀ (s t : State) (x y : Reg) (n : Height) (i : Instr),
    i ∈ [.addReg x y, .subReg x y, .subn x y, .shr x y, .shl x y, .drw x y n] →
    raises i s = none → (i = .drw x y n ∨ s.config.vfAsDest = .flagLast ∨ x ≠ vf) → exec i s = .next t →
    t.v[vf] = 0 ∨ t.v[vf] = 1

/-- R94, R128: the cycle of Cxkk writes `rand & kk` to Vx, for every byte `rand` the host hands over, and nothing else but
PC. (The model's count of bytes consumed is no state of the core.) -/
def Obligations.RndMasksTheRandomByte : Prop :=
  ∀ (s : State) (x : Reg) (kk rand : Byte),
    Runs (wordXKK 0xC x kk.toNat) (.rnd x kk) ∧
    (s.NoFault → s.pc.toNat ≤ 0xFFE → s.wordAtPc = (wordXKK 0xC x kk.toNat).toNat →
      ∃ t, cycle rand s = .next t ∧ (∀ k < 8, t.v[x].getLsbD k = (rand.getLsbD k && kk.getLsbD k)) ∧
        (∀ r : Reg, r ≠ x → t.v[r] = s.v[r]) ∧
        t = { s with v := t.v, pc := s.pc + 2, opcode := 0, randIn := none, randCount := s.randCount + 1 })

/-- The handler of RND in the model's form of `rand` (log entry 4, a DESIGN CHOICE; R8 takes it as an input): it consumes the
byte handed over, or, where none is, a free value nothing constrains. -/
def Obligations.RndConsumesOneByte : Prop :=
  ∀ (s : State) (x : Reg) (kk : Byte),
    (∀ b : Byte, s.randIn = some b → exec (.rnd x kk) s =
      .next { s with v := s.v.set x (b &&& kk), randIn := none, randCount := s.randCount + 1 }) ∧
    (s.randIn = none → exec (.rnd x kk) s =
      .next { s with v := s.v.set x (Config.randomByte s.randCount &&& kk), randCount := s.randCount + 1 })

/-! ### Index register and memory -/

/-- R95, R97: Vx is not reduced to its low nibble. -/
def Obligations.IndexLoads : Prop :=
  ∀ (s : State) (nnn : Addr12) (x : Reg),
    (Runs (wordNNN 0xA nnn) (.ldI nnn) ∧
      ∃ t, exec (.ldI nnn) s = .next t ∧ t.index.toNat = nnn.toNat ∧ t = { s with index := t.index }) ∧
    (Runs (wordXKK 0xF x 0x29) (.ldF x) ∧
      ∃ t, exec (.ldF x) s = .next t ∧ t.index.toNat = 0x050 + 5 * s.v[x].toNat ∧ t = { s with index := t.index })

/-- R96. -/
def Obligations.AddToIndexOrFault : Prop :=
  ∀ (s : State) (x : Reg),
    Runs (wordXKK 0xF x 0x1E) (.addI x) ∧
    (s.index.toNat + s.v[x].toNat ≤ 0xFFFF →
      ∃ t, exec (.addI x) s = .next t ∧ t.index.toNat = s.index.toNat + s.v[x].toNat ∧
        t = { s with index := t.index }) ∧
    (s.index.toNat + s.v[x].toNat > 0xFFFF → exec (.addI x) s = .next (s.withFault 7 (s.v[x].setWidth 16)))

/-- R98, R40: three digits most significant first, every other byte unchanged, I unchanged; or the fault and no byte. The
stored bytes are read back in a memory in canonical form, which every step keeps. -/
def Obligations.DecimalDigitsAreStored : Prop :=
  ∀ (s : State) (x : Reg), Memory.WF s.config.font s.mem →
    Runs (wordXKK 0xF x 0x33) (.ldB x) ∧
    (s.indexAddr 0 + 2 ≤ 0xFFF →
      ∃ t, exec (.ldB x) s = .next t ∧
        (t.readByte (s.indexAddr 0)).toNat = s.v[x].toNat / 100 ∧
        (t.readByte (s.indexAddr 0 + 1)).toNat = s.v[x].toNat / 10 % 10 ∧
        (t.readByte (s.indexAddr 0 + 2)).toNat = s.v[x].toNat % 10 ∧
        (∀ a, a < s.indexAddr 0 ∨ s.indexAddr 0 + 3 ≤ a → t.readByte a = s.readByte a) ∧
        t = { s with mem := t.mem }) ∧
    (s.indexAddr 0 + 2 > 0xFFF →
      exec (.ldB x) s = .next (s.withFault 5 (BitVec.ofNat 16 (max (s.indexAddr 0) 0x1000))))

/-- R99, R40. -/
def Obligations.RegistersAreStored : Prop :=
  ∀ (s : State) (x : Reg), Memory.WF s.config.font s.mem →
    Runs (wordXKK 0xF x 0x55) (.storeRegs x) ∧
    (s.indexAddr 0 + x.val ≤ 0xFFF →
      ∃ t, exec (.storeRegs x) s = .next t ∧
        (∀ k : Reg, k ≤ x → t.readByte (s.indexAddr 0 + k.val) = s.v[k]) ∧
        (∀ a, a < s.indexAddr 0 ∨ s.indexAddr 0 + x.val + 1 ≤ a → t.readByte a = s.readByte a) ∧
        t = { s with mem := t.mem }) ∧
    (s.indexAddr 0 + x.val > 0xFFF →
      exec (.storeRegs x) s = .next (s.withFault 5 (BitVec.ofNat 16 (max (s.indexAddr 0) 0x1000))))

/-- R100, R39. -/
def Obligations.RegistersAreLoaded : Prop :=
  ∀ (s : State) (x : Reg),
    Runs (wordXKK 0xF x 0x65) (.loadRegs x) ∧
    (s.indexAddr 0 + x.val ≤ 0xFFF →
      ∃ t, exec (.loadRegs x) s = .next t ∧
        (∀ k : Reg, k ≤ x → t.v[k] = s.readByte (s.indexAddr 0 + k.val)) ∧
        (∀ k : Reg, x < k → t.v[k] = s.v[k]) ∧ t = { s with v := t.v }) ∧
    (s.indexAddr 0 + x.val > 0xFFF →
      exec (.loadRegs x) s = .next (s.withFault 4 (BitVec.ofNat 16 (max (s.indexAddr 0) 0x1000))))

/-- R51, R141: the bytes Fx55 stores are the opcode that the very next fetch of that address reads. -/
def Obligations.StoredBytesAreFetched : Prop :=
  ∀ (s : State) (x : Reg), Memory.WF s.config.font s.mem → 1 ≤ x.val → s.index.toNat + x.val ≤ 0xFFF →
    ∃ t, exec (.storeRegs x) s = .next t ∧
      fetch { t with pc := s.index } = .ok (BitVec.ofNat 16 (s.v[0].toNat * 256 + s.v[1].toNat))

/-! ### Display -/

/-- R104. -/
def Obligations.ClsClearsEveryPixel : Prop :=
  Runs 0x00E0 .cls ∧
  ∀ s : State, ∃ t, exec .cls s = .next t ∧ (∀ px py, t.fb.pixel px py = false) ∧ t = { s with fb := t.fb }

/-- R105, R101, R102, R103: exactly the pixels the sprite's set bits land on are toggled; VF is 1 exactly when a counted set
bit lands on a pixel that was ON; or the fault, with nothing drawn. -/
def Obligations.DrwTogglesTheSpritesPixels : Prop :=
  ∀ (s : State) (x y : Reg) (n : Height),
    Runs (wordXYN 0xD x y n.val) (.drw x y n) ∧
    ((n.val = 0 ∨ s.index.toNat + n.val - 1 ≤ 0xFFF) →
      ∃ t, exec (.drw x y n) s = .next t ∧
        (∀ px py, px < 64 → py < 32 →
          ((∃ r c, r < n.val ∧ c < 8 ∧ s.SpriteBitAt x y r c px py) → t.fb.pixel px py = !s.fb.pixel px py) ∧
          ((¬∃ r c, r < n.val ∧ c < 8 ∧ s.SpriteBitAt x y r c px py) → t.fb.pixel px py = s.fb.pixel px py)) ∧
        ((∃ r c px py, r < n.val ∧ c < 8 ∧ s.SpriteBitAt x y r c px py ∧ s.fb.pixel px py = true ∧ s.Counts c) →
          t.v[vf] = 1) ∧
        ((¬∃ r c px py, r < n.val ∧ c < 8 ∧ s.SpriteBitAt x y r c px py ∧ s.fb.pixel px py = true ∧ s.Counts c) →
          t.v[vf] = 0) ∧
        (∀ r : Reg, r ≠ vf → t.v[r] = s.v[r]) ∧ t = { s with fb := t.fb, v := t.v }) ∧
    (n.val > 0 → s.index.toNat + n.val - 1 > 0xFFF →
      exec (.drw x y n) s = .next (s.withFault 4 (BitVec.ofNat 16 (max s.index.toNat 0x1000))))

/-- R105, corner cases: the same sprite drawn twice at the same place restores the framebuffer, and the second draw's VF is 1
exactly when the first turned a counted pixel from OFF to ON. (An origin read from VF itself would move.) -/
def Obligations.DrawingTwiceRestoresTheScreen : Prop :=
  ∀ (s : State) (x y : Reg) (n : Height), x ≠ vf → y ≠ vf →
    (n.val = 0 ∨ s.index.toNat + n.val - 1 ≤ 0xFFF) →
    ∃ t u, exec (.drw x y n) s = .next t ∧ exec (.drw x y n) t = .next u ∧ u.fb = s.fb ∧
      (u.v[vf] = 1 ↔
        ∃ r c px py, r < n.val ∧ c < 8 ∧ s.SpriteBitAt x y r c px py ∧ s.fb.pixel px py = false ∧ s.Counts c)

/-! ### Keypad and timers -/

/-- R106, R107. -/
def Obligations.KeySkips : Prop :=
  ∀ (s : State) (x : Reg),
    Runs (wordXKK 0xE x 0x9E) (.skp x) ∧ Runs (wordXKK 0xE x 0xA1) (.sknp x) ∧
    (∀ k : Key, s.v[x].toNat = k.val →
      exec (.skp x) s = .next { s with pc := if s.keys[k] = true then s.pc + 2 else s.pc } ∧
      exec (.sknp x) s = .next { s with pc := if s.keys[k] = true then s.pc else s.pc + 2 }) ∧
    (s.v[x].toNat > 0xF →
      exec (.skp x) s = .next (s.withFault 6 (s.v[x].setWidth 16)) ∧
      exec (.sknp x) s = .next (s.withFault 6 (s.v[x].setWidth 16)))

/-- R108, R110, R111. -/
def Obligations.TimerMoves : Prop :=
  ∀ (s : State) (x : Reg),
    (Runs (wordXKK 0xF x 0x07) (.ldVxDt x) ∧
      ∃ t, exec (.ldVxDt x) s = .next t ∧ t.v[x] = s.dt ∧ (∀ r : Reg, r ≠ x → t.v[r] = s.v[r]) ∧
        t = { s with v := t.v }) ∧
    (Runs (wordXKK 0xF x 0x15) (.ldDtVx x) ∧ exec (.ldDtVx x) s = .next { s with dt := s.v[x] }) ∧
    (Runs (wordXKK 0xF x 0x18) (.ldStVx x) ∧ exec (.ldStVx x) s = .next { s with st := s.v[x] })

/-- R109: the lowest pressed key is taken at once; with none pressed PC goes back, so that the whole cycle leaves the state as
it was. -/
def Obligations.WaitForKey : Prop :=
  ∀ (s : State) (x : Reg),
    Runs (wordXKK 0xF x 0x0A) (.ldVxKey x) ∧
    (∀ k : Key, s.keys[k] = true → (∀ j : Key, j < k → s.keys[j] = false) →
      ∃ t, exec (.ldVxKey x) s = .next t ∧ t.v[x].toNat = k.val ∧ (∀ r : Reg, r ≠ x → t.v[r] = s.v[r]) ∧
        t = { s with v := t.v }) ∧
    ((∀ k : Key, s.keys[k] = false) → exec (.ldVxKey x) s = .next { s with pc := s.pc - 2 }) ∧
    ((∀ k : Key, s.keys[k] = false) → s.NoFault → s.pc.toNat ≤ 0xFFE →
      s.wordAtPc = (wordXKK 0xF x 0x0A).toNat → step s = .next { s with opcode := 0 })

/-! ### Faults -/

/-- R113: a fetch and an instruction raise the fault of their row under the row's condition, with the row's code and info,
and never otherwise; an unmatched word raises none. -/
def Obligations.FaultsExactlyUnderTheirConditions : Prop :=
  ∀ s : State, s.NoFault →
    (s.pc.toNat + 1 > 0xFFF →
      ∃ t, step s = .next t ∧ t.faulted = true ∧ t.faultCause.toNat = 1 ∧ t.faultInfo.toNat = max s.pc.toNat 0x1000) ∧
    (s.pc.toNat + 1 ≤ 0xFFF → decode s.config.subDecode (BitVec.ofNat 16 s.wordAtPc) = .unmatched →
      ∃ t, step s = .next t ∧ t.faulted = false) ∧
    (∀ i : Instr,
      (∀ code info, raises i s = some (code, info) →
        exec i s = .next (s.withFault (BitVec.ofNat 8 code) (BitVec.ofNat 16 info))) ∧
      (raises i s = none → ∃ t, exec i s = .next t ∧ t.faulted = false))

/-- R115: a fault is precise. After it every piece of state but the five fault status registers is what it was before the
cycle, PC included, and they hold the cause and info of R113, the instruction's address, and its word (0 for a fetch fault). -/
def Obligations.FaultsArePrecise : Prop :=
  ∀ s t : State, s.NoFault → step s = .next t → t.faulted = true →
    ((s.pc.toNat ≥ 0xFFF ∧ t.faultCause.toNat = 1 ∧ t.faultInfo.toNat = max s.pc.toNat 0x1000) ∨
      (s.pc.toNat ≤ 0xFFE ∧ t.faultCause.toNat ≠ 1 ∧
        ∃ i, decode s.config.subDecode (BitVec.ofNat 16 s.wordAtPc) = .instr i ∧
          raises i s = some (t.faultCause.toNat, t.faultInfo.toNat))) ∧
    t = { s with
      faulted := true
      faultCause := t.faultCause
      faultPc := s.pc
      faultOpcode := if t.faultCause.toNat = 1 then 0 else BitVec.ofNat 16 s.wordAtPc
      faultInfo := t.faultInfo
      opcode := 0 }

/-- R116: what a faulted core does. -/
def Obligations.FaultedCoreWaitsForReset : Prop :=
  ∀ s : State, s.faulted = true →
    (step s = .next s ∧ ∀ rand : Byte, cycle rand s = .next { s with randIn := none }) ∧
    (∃ u, transact .tick s = .next (.none, u) ∧ u.dt.toNat = s.dt.toNat - 1 ∧ u.st.toNat = s.st.toNat - 1) ∧
    (∀ (tr : Transaction) (r : Reply) (u : State),
      (∃ k b, tr = .keyWrite k b) ∨ (∃ bytes, tr = .loadRom bytes) ∨ tr = .fbRead →
      transact tr { s with faulted := false } = .next (r, u) → transact tr s = .next (r, { u with faulted := true })) ∧
    (∀ (tr : Transaction) (r : Reply) (u : State), transact tr s = .next (r, u) →
      (u.faulted = false ↔ tr = .reset))

/-! ### Frames -/

/-- R14: no instruction changes a general register its row does not list as written, and a register its row lists neither as
read nor as written plays no part in what it does. -/
def Obligations.RegistersWrittenAndRead : Prop :=
  ∀ (i : Instr) (s t : State), exec i s = .next t →
    (∀ r : Reg, writesReg i r = false → t.v[r] = s.v[r]) ∧
    (∀ (r : Reg) (b : Byte), writesReg i r = false → readsReg s.config i r = false →
      exec i { s with v := s.v.set r b } = .next { t with v := t.v.set r b })

/-- R22, R26, R27: who writes the special state. PC and the fault status registers change otherwise only where the instruction
raises a fault; the keypad, the configuration and the opcode latch never change. -/
def Obligations.SpecialStateFrame : Prop :=
  ∀ (i : Instr) (s t : State), exec i s = .next t →
    (writesSpecial i .index = false → t.index = s.index) ∧
    (writesSpecial i .pc = false → raises i s = none → t.pc = s.pc) ∧
    (writesSpecial i .sp = false → t.sp = s.sp) ∧
    (writesSpecial i .stack = false → t.stack = s.stack) ∧
    (writesSpecial i .dt = false → t.dt = s.dt) ∧
    (writesSpecial i .st = false → t.st = s.st) ∧
    (writesSpecial i .fb = false → t.fb = s.fb) ∧
    (writesSpecial i .rand = false → t.randIn = s.randIn ∧ t.randCount = s.randCount) ∧
    (raises i s = none → t.faulted = s.faulted ∧ t.faultCause = s.faultCause ∧ t.faultPc = s.faultPc ∧
      t.faultOpcode = s.faultOpcode ∧ t.faultInfo = s.faultInfo) ∧
    t.keys = s.keys ∧ t.config = s.config ∧ t.opcode = s.opcode

/-- R34, R40: every byte outside those an instruction stores, from the address I up, reads as before; an instruction that
stores none changes no byte. -/
def Obligations.MemoryFrame : Prop :=
  ∀ (i : Instr) (s t : State) (a : Nat), exec i s = .next t →
    (storedBytes i = 0 ∨ a < s.indexAddr 0 ∨ s.indexAddr 0 + storedBytes i ≤ a) → t.readByte a = s.readByte a

/-- R25, R126, R134: only a fault and Reset write the fault status registers, only KeyWrite and Reset the keypad. -/
def Obligations.FaultRegistersAndKeypadFrame : Prop :=
  ∀ (tr : Transaction) (s u : State) (r : Reply), transact tr s = .next (r, u) → tr ≠ .reset →
    ((u.faulted = s.faulted ∧ u.faultCause = s.faultCause ∧ u.faultPc = s.faultPc ∧
        u.faultOpcode = s.faultOpcode ∧ u.faultInfo = s.faultInfo) ∨
      ((∃ rand, tr = .cycle rand) ∧ s.faulted = false ∧ u.faulted = true)) ∧
    (u.keys = s.keys ∨ ∃ k b, tr = .keyWrite k b ∧ ∀ j : Key, j ≠ k → u.keys[j] = s.keys[j])

/-! ### The host's transactions -/

/-- R124. -/
def Obligations.TickCountsDown : Prop :=
  ∀ s : State, ∃ u, transact .tick s = .next (.none, u) ∧
    u.dt.toNat = s.dt.toNat - 1 ∧ u.st.toNat = s.st.toNat - 1 ∧ u = { s with dt := u.dt, st := u.st }

/-- R126: KeyWrite sets its key and no other, the order of two KeyWrites of different keys does not matter, and no cycle
writes a key. -/
def Obligations.KeyWritesSetOneKey : Prop :=
  ∀ (s : State) (k : Key) (b : Bool),
    (∃ u, transact (.keyWrite k b) s = .next (.none, u) ∧ u.keys[k] = b ∧
      (∀ j : Key, j ≠ k → u.keys[j] = s.keys[j]) ∧ u = { s with keys := u.keys }) ∧
    (∀ (j : Key) (c : Bool), j ≠ k →
      transactAll [.keyWrite k b, .keyWrite j c] s = transactAll [.keyWrite j c, .keyWrite k b] s) ∧
    (∀ (rand : Byte) (r : Reply) (t : State), transact (.cycle rand) s = .next (r, t) → t.keys = s.keys)

/-- R127, R23, R129: FBRead returns the 2048 words in row-major order, each 0 or 0xFFFFFFFF, and StatusRead the five fault
status registers; neither changes the state. -/
def Obligations.HostReads : Prop :=
  ∀ s : State,
    (∃ words, transact .fbRead s = .next (.frame words, s) ∧ words.length = 2048 ∧
      ∀ px py, px < 64 → py < 32 →
        words[py * 64 + px]? = some (if s.fb.pixel px py = true then 0xFFFFFFFF#32 else 0x00000000#32)) ∧
    transact .statusRead s = .next
      (.status ⟨s.faulted, s.faultCause, s.faultPc, s.faultOpcode, s.faultInfo⟩, s)

/-- R137: at most 0xE00 bytes are copied from 0x200 up and every other byte keeps its value; a longer sequence is refused with
no state change. -/
def Obligations.LoadRomCopiesOrRefuses : Prop :=
  ∀ (s : State) (bytes : List Byte), Memory.WF s.config.font s.mem →
    (bytes.length ≤ 0xE00 →
      ∃ u, transact (.loadRom bytes) s = .next (.accepted, u) ∧
        (∀ k (h : k < bytes.length), u.readByte (0x200 + k) = bytes[k]) ∧
        (∀ a, a < 0x200 ∨ 0x200 + bytes.length ≤ a → u.readByte a = s.readByte a) ∧
        u = { s with mem := u.mem }) ∧
    (bytes.length > 0xE00 → transact (.loadRom bytes) s = .next (.refused, s))

/-- R135, R30: the state after Reset(), from any state, whatever the configuration. -/
def Obligations.ResetGivesTheResetState : Prop :=
  ∀ s : State, ∃ u, transact .reset s = .next (.none, u) ∧
    (∀ a < 0x1000, u.readByte a =
      if 0x050 ≤ a ∧ a < 0x0A0 then s.config.font.toList.getD (a - 0x050) 0 else 0x00) ∧
    (∀ r : Reg, u.v[r] = 0x00) ∧ u.index = 0x0000 ∧ u.pc = 0x0200 ∧ u.sp.val = 0 ∧
    (∀ k : Fin 16, u.stack[k] = 0x0000) ∧ u.dt = 0x00 ∧ u.st = 0x00 ∧
    (∀ px py, u.fb.pixel px py = false) ∧ (∀ k : Key, u.keys[k] = false) ∧
    u.faulted = false ∧ u.faultCause = 0 ∧ u.faultPc = 0 ∧ u.faultOpcode = 0 ∧ u.faultInfo = 0

/-- The model's own fields across Reset() (log entries 1, 3 and 4, DESIGN CHOICES): the configuration and the count of random
bytes go on, nothing waits, and `State.reset` is what Reset() gives a fresh machine of the default configuration. -/
def Obligations.ResetKeepsTheConfiguration : Prop :=
  ∀ s : State, ∃ u, transact .reset s = .next (.none, u) ∧ u.config = s.config ∧ u.randCount = s.randCount ∧
    u.randIn = none ∧ u.opcode = 0 ∧
    (s.config = Config.default → s.randCount = 0 → u = State.reset)

/-- R136, R138, R137: after Reset() and LoadROM the first cycle fetches the first two bytes of the program. -/
def Obligations.FirstCycleFetchesTheProgram : Prop :=
  ∀ (s : State) (h l : Byte) (rest : List Byte), rest.length + 2 ≤ 0xE00 →
    ∃ rs u, transactAll [.reset, .loadRom (h :: l :: rest)] s = .next (rs, u) ∧ u.NoFault ∧ u.pc.toNat = 0x200 ∧
      fetch u = .ok (BitVec.ofNat 16 (h.toNat * 256 + l.toNat))

/-- R128: a cycle whose instruction is not Cxkk ignores `rand`, one that fetches none included. -/
def Obligations.OnlyRndReadsTheRandomByte : Prop :=
  ∀ (s : State) (b c : Byte),
    (s.NoFault → s.pc.toNat ≤ 0xFFE → ∀ x kk,
      decode s.config.subDecode (BitVec.ofNat 16 s.wordAtPc) ≠ .instr (.rnd x kk)) →
    cycle b s = cycle c s

/-- R8, R56: where no byte is waiting, a step is the transaction `Cycle(rand)` for a byte nothing constrains. The free value is
the model's form of the input (log entry 4). -/
def Obligations.StepIsACycleOfSomeByte : Prop :=
  ∀ s : State, s.randIn = none → step s = cycle (Config.randomByte s.randCount) s

/-- R73, R133: a jump to its own address leaves the state unchanged. -/
def Obligations.JumpToItselfChangesNothing : Prop :=
  ∀ s : State, s.NoFault → s.pc.toNat ≤ 0xFFE → s.wordAtPc = 0x1000 + s.pc.toNat →
    step s = .next { s with opcode := 0 }

/-! ### The invariant -/

/-- R31, R32: every step keeps the invariant, from any state that has it. -/
def Obligations.StepKeepsLegal : Prop :=
  ∀ s t : State, s.Legal → step s = .next t → t.Legal

/-- R30, R31: the reset state of every configuration has the invariant. -/
def Obligations.ResetIsLegal : Prop :=
  State.reset.Legal ∧ ∀ c : Config, (State.resetWith c).Legal

/-- R31, R129, R130: every transaction of the host keeps the invariant, from any state that has it. -/
def Obligations.TransactionsKeepLegal : Prop :=
  ∀ (tr : Transaction) (s u : State) (r : Reply), s.Legal → transact tr s = .next (r, u) → u.Legal

/-- R31: every state that transactions reach from Reset(), in any order and on a machine of any configuration, satisfies
(a) to (e). The host sees the pixels through FBRead. -/
def Obligations.ReachableStatesSatisfyTheInvariants : Prop :=
  ∀ s : State, s.Reachable →
    s.sp.val ≤ 16 ∧
    (∀ w ∈ fbRead s, w = 0x00000000#32 ∨ w = 0xFFFFFFFF#32) ∧
    s.pc.toNat ≤ 0x10FE ∧
    (s.faulted = false → s.faultCause.toNat = 0) ∧
    (s.faulted = true → 1 ≤ s.faultCause.toNat ∧ s.faultCause.toNat ≤ 7)

/-- R28, R33: memory in canonical form is its bytes. Two memories that read alike everywhere are equal data. -/
def Obligations.CanonicalMemoryIsItsBytes : Prop :=
  ∀ (font : FontTable) (m n : Memory), Memory.WF font m → Memory.WF font n →
    (∀ a < 0x1000, Memory.read font m a = Memory.read font n a) → m = n
end

