-- ==== Sys2Proof/Laws/Encoding.lean ====
section
/-! SUPPORT. The fields of a packed word are the fields it was packed from, and a word's two bytes join to the word
(spec/30_encoding.md R54, R57). Each packed word is first written as a number. -/

namespace Sys2Proof

/-- Concatenation as a number. -/
theorem toNat_append_eq {m n : Nat} (a : BitVec m) (b : BitVec n) :
    (a ++ b).toNat = a.toNat * 2 ^ n + b.toNat := by
  rw [BitVec.toNat_append, ← Nat.shiftLeft_add_eq_or_of_lt b.isLt, Nat.shiftLeft_eq]

theorem packNNN_toNat (o : BitVec 4) (nnn : Addr12) : (packNNN o nnn).toNat = o.toNat * 4096 + nnn.toNat :=
  toNat_append_eq o nnn

theorem packXKK_toNat (o : BitVec 4) (x : Reg) (kk : Byte) :
    (packXKK o x kk).toNat = o.toNat * 4096 + x.val * 256 + kk.toNat := by
  have h1 := toNat_append_eq (o ++ (BitVec.ofFin x : BitVec 4)) kk
  have h2 := toNat_append_eq o (BitVec.ofFin x : BitVec 4)
  simp only [BitVec.toNat_ofFin] at h2
  rw [h2] at h1
  exact h1.trans (by omega)

theorem packXYN_toNat (o : BitVec 4) (x y : Reg) (n : BitVec 4) :
    (packXYN o x y n).toNat = o.toNat * 4096 + x.val * 256 + y.val * 16 + n.toNat := by
  have h1 := toNat_append_eq (o ++ (BitVec.ofFin x : BitVec 4) ++ (BitVec.ofFin y : BitVec 4)) n
  have h2 := toNat_append_eq (o ++ (BitVec.ofFin x : BitVec 4)) (BitVec.ofFin y : BitVec 4)
  have h3 := toNat_append_eq o (BitVec.ofFin x : BitVec 4)
  simp only [BitVec.toNat_ofFin] at h2 h3
  rw [h2, h3] at h1
  exact h1.trans (by omega)

theorem opO_toNat (w : Word) : (opO w).toNat = w.toNat / 4096 := by
  have := w.isLt
  simp [opO, BitVec.extractLsb'_toNat, Nat.shiftRight_eq_div_pow]; omega

theorem opX_val (w : Word) : (opX w).val = w.toNat / 256 % 16 := by
  simp [opX, Nat.shiftRight_eq_div_pow]

theorem opY_val (w : Word) : (opY w).val = w.toNat / 16 % 16 := by
  simp [opY, Nat.shiftRight_eq_div_pow]

theorem opN_toNat (w : Word) : (opN w).toNat = w.toNat % 16 := by simp [opN]

theorem opKK_toNat (w : Word) : (opKK w).toNat = w.toNat % 256 := by simp [opKK]

theorem opNNN_toNat (w : Word) : (opNNN w).toNat = w.toNat % 4096 := by simp [opNNN]

@[simp] theorem opO_packNNN (o : BitVec 4) (nnn : Addr12) : opO (packNNN o nnn) = o := by
  apply BitVec.eq_of_toNat_eq
  rw [opO_toNat, packNNN_toNat]; have := nnn.isLt; omega

@[simp] theorem opNNN_packNNN (o : BitVec 4) (nnn : Addr12) : opNNN (packNNN o nnn) = nnn := by
  apply BitVec.eq_of_toNat_eq
  rw [opNNN_toNat, packNNN_toNat]; have := nnn.isLt; omega

@[simp] theorem opKK_packNNN (o : BitVec 4) (nnn : Addr12) : opKK (packNNN o nnn) = nnn.extractLsb' 0 8 := by
  apply BitVec.eq_of_toNat_eq
  rw [opKK_toNat, packNNN_toNat, BitVec.extractLsb'_toNat]; simp; omega

@[simp] theorem opN_packNNN (o : BitVec 4) (nnn : Addr12) : opN (packNNN o nnn) = nnn.extractLsb' 0 4 := by
  apply BitVec.eq_of_toNat_eq
  rw [opN_toNat, packNNN_toNat, BitVec.extractLsb'_toNat]; simp; omega

@[simp] theorem opO_packXKK (o : BitVec 4) (x : Reg) (kk : Byte) : opO (packXKK o x kk) = o := by
  apply BitVec.eq_of_toNat_eq
  rw [opO_toNat, packXKK_toNat]; have := kk.isLt; omega

@[simp] theorem opX_packXKK (o : BitVec 4) (x : Reg) (kk : Byte) : opX (packXKK o x kk) = x := by
  apply Fin.ext
  rw [opX_val, packXKK_toNat]; have := kk.isLt; omega

@[simp] theorem opKK_packXKK (o : BitVec 4) (x : Reg) (kk : Byte) : opKK (packXKK o x kk) = kk := by
  apply BitVec.eq_of_toNat_eq
  rw [opKK_toNat, packXKK_toNat]; have := kk.isLt; omega

@[simp] theorem opN_packXKK (o : BitVec 4) (x : Reg) (kk : Byte) : opN (packXKK o x kk) = kk.extractLsb' 0 4 := by
  apply BitVec.eq_of_toNat_eq
  rw [opN_toNat, packXKK_toNat, BitVec.extractLsb'_toNat]; simp; omega

@[simp] theorem opO_packXYN (o : BitVec 4) (x y : Reg) (n : BitVec 4) : opO (packXYN o x y n) = o := by
  apply BitVec.eq_of_toNat_eq
  rw [opO_toNat, packXYN_toNat]; have := n.isLt; omega

@[simp] theorem opX_packXYN (o : BitVec 4) (x y : Reg) (n : BitVec 4) : opX (packXYN o x y n) = x := by
  apply Fin.ext
  rw [opX_val, packXYN_toNat]; have := n.isLt; omega

@[simp] theorem opY_packXYN (o : BitVec 4) (x y : Reg) (n : BitVec 4) : opY (packXYN o x y n) = y := by
  apply Fin.ext
  rw [opY_val, packXYN_toNat]; have := n.isLt; omega

@[simp] theorem opN_packXYN (o : BitVec 4) (x y : Reg) (n : BitVec 4) : opN (packXYN o x y n) = n := by
  apply BitVec.eq_of_toNat_eq
  rw [opN_toNat, packXYN_toNat]; have := n.isLt; omega

/-- Big-endian composition as a number (R41). -/
theorem joinBytes_toNat (h l : Byte) : (joinBytes h l).toNat = h.toNat * 256 + l.toNat := by
  have hh := h.isLt
  have e : (h.setWidth 16 <<< 8).toNat = h.toNat <<< 8 := by
    simp [Nat.shiftLeft_eq]; omega
  rw [joinBytes, BitVec.toNat_or, e, BitVec.toNat_setWidth, Nat.mod_eq_of_lt (by omega),
    ← Nat.shiftLeft_add_eq_or_of_lt l.isLt, Nat.shiftLeft_eq]

/-- The bytes memory stores for an opcode are read back as the opcode (R41, R57). -/
@[simp] theorem joinBytes_wordBytes (w : Word) : joinBytes (highByte w) (lowByte w) = w := by
  apply BitVec.eq_of_toNat_eq
  have := w.isLt
  rw [joinBytes_toNat]
  simp [highByte, lowByte, Nat.shiftRight_eq_div_pow]; omega

end Sys2Proof
end

