-- ==== Sys2Proof/Laws/State.lean ====
section
/-! SUPPORT. One lemma per field per named update of the state, true by unfolding, so that no later proof unfolds a record
update. Then the same for `State.writeRF`, whose two writes both go to the register file. -/

namespace Sys2Proof.Machine

/-! ### `State.setV` -/

@[simp] theorem State.setV_config (s : State) (x : Reg) (b : Byte) :
    (s.setV x b).config = s.config := rfl
@[simp] theorem State.setV_v (s : State) (x : Reg) (b : Byte) :
    (s.setV x b).v = s.v.set x b := rfl
@[simp] theorem State.setV_index (s : State) (x : Reg) (b : Byte) :
    (s.setV x b).index = s.index := rfl
@[simp] theorem State.setV_pc (s : State) (x : Reg) (b : Byte) :
    (s.setV x b).pc = s.pc := rfl
@[simp] theorem State.setV_sp (s : State) (x : Reg) (b : Byte) :
    (s.setV x b).sp = s.sp := rfl
@[simp] theorem State.setV_stack (s : State) (x : Reg) (b : Byte) :
    (s.setV x b).stack = s.stack := rfl
@[simp] theorem State.setV_dt (s : State) (x : Reg) (b : Byte) :
    (s.setV x b).dt = s.dt := rfl
@[simp] theorem State.setV_st (s : State) (x : Reg) (b : Byte) :
    (s.setV x b).st = s.st := rfl
@[simp] theorem State.setV_fb (s : State) (x : Reg) (b : Byte) :
    (s.setV x b).fb = s.fb := rfl
@[simp] theorem State.setV_keys (s : State) (x : Reg) (b : Byte) :
    (s.setV x b).keys = s.keys := rfl
@[simp] theorem State.setV_mem (s : State) (x : Reg) (b : Byte) :
    (s.setV x b).mem = s.mem := rfl
@[simp] theorem State.setV_faulted (s : State) (x : Reg) (b : Byte) :
    (s.setV x b).faulted = s.faulted := rfl
@[simp] theorem State.setV_faultCause (s : State) (x : Reg) (b : Byte) :
    (s.setV x b).faultCause = s.faultCause := rfl
@[simp] theorem State.setV_faultPc (s : State) (x : Reg) (b : Byte) :
    (s.setV x b).faultPc = s.faultPc := rfl
@[simp] theorem State.setV_faultOpcode (s : State) (x : Reg) (b : Byte) :
    (s.setV x b).faultOpcode = s.faultOpcode := rfl
@[simp] theorem State.setV_faultInfo (s : State) (x : Reg) (b : Byte) :
    (s.setV x b).faultInfo = s.faultInfo := rfl
@[simp] theorem State.setV_opcode (s : State) (x : Reg) (b : Byte) :
    (s.setV x b).opcode = s.opcode := rfl
@[simp] theorem State.setV_randIn (s : State) (x : Reg) (b : Byte) :
    (s.setV x b).randIn = s.randIn := rfl
@[simp] theorem State.setV_randCount (s : State) (x : Reg) (b : Byte) :
    (s.setV x b).randCount = s.randCount := rfl

/-! ### `State.setIndex` -/

@[simp] theorem State.setIndex_config (s : State) (w : Word) :
    (s.setIndex w).config = s.config := rfl
@[simp] theorem State.setIndex_v (s : State) (w : Word) :
    (s.setIndex w).v = s.v := rfl
@[simp] theorem State.setIndex_index (s : State) (w : Word) :
    (s.setIndex w).index = w := rfl
@[simp] theorem State.setIndex_pc (s : State) (w : Word) :
    (s.setIndex w).pc = s.pc := rfl
@[simp] theorem State.setIndex_sp (s : State) (w : Word) :
    (s.setIndex w).sp = s.sp := rfl
@[simp] theorem State.setIndex_stack (s : State) (w : Word) :
    (s.setIndex w).stack = s.stack := rfl
@[simp] theorem State.setIndex_dt (s : State) (w : Word) :
    (s.setIndex w).dt = s.dt := rfl
@[simp] theorem State.setIndex_st (s : State) (w : Word) :
    (s.setIndex w).st = s.st := rfl
@[simp] theorem State.setIndex_fb (s : State) (w : Word) :
    (s.setIndex w).fb = s.fb := rfl
@[simp] theorem State.setIndex_keys (s : State) (w : Word) :
    (s.setIndex w).keys = s.keys := rfl
@[simp] theorem State.setIndex_mem (s : State) (w : Word) :
    (s.setIndex w).mem = s.mem := rfl
@[simp] theorem State.setIndex_faulted (s : State) (w : Word) :
    (s.setIndex w).faulted = s.faulted := rfl
@[simp] theorem State.setIndex_faultCause (s : State) (w : Word) :
    (s.setIndex w).faultCause = s.faultCause := rfl
@[simp] theorem State.setIndex_faultPc (s : State) (w : Word) :
    (s.setIndex w).faultPc = s.faultPc := rfl
@[simp] theorem State.setIndex_faultOpcode (s : State) (w : Word) :
    (s.setIndex w).faultOpcode = s.faultOpcode := rfl
@[simp] theorem State.setIndex_faultInfo (s : State) (w : Word) :
    (s.setIndex w).faultInfo = s.faultInfo := rfl
@[simp] theorem State.setIndex_opcode (s : State) (w : Word) :
    (s.setIndex w).opcode = s.opcode := rfl
@[simp] theorem State.setIndex_randIn (s : State) (w : Word) :
    (s.setIndex w).randIn = s.randIn := rfl
@[simp] theorem State.setIndex_randCount (s : State) (w : Word) :
    (s.setIndex w).randCount = s.randCount := rfl

/-! ### `State.setPc` -/

@[simp] theorem State.setPc_config (s : State) (w : Word) :
    (s.setPc w).config = s.config := rfl
@[simp] theorem State.setPc_v (s : State) (w : Word) :
    (s.setPc w).v = s.v := rfl
@[simp] theorem State.setPc_index (s : State) (w : Word) :
    (s.setPc w).index = s.index := rfl
@[simp] theorem State.setPc_pc (s : State) (w : Word) :
    (s.setPc w).pc = w := rfl
@[simp] theorem State.setPc_sp (s : State) (w : Word) :
    (s.setPc w).sp = s.sp := rfl
@[simp] theorem State.setPc_stack (s : State) (w : Word) :
    (s.setPc w).stack = s.stack := rfl
@[simp] theorem State.setPc_dt (s : State) (w : Word) :
    (s.setPc w).dt = s.dt := rfl
@[simp] theorem State.setPc_st (s : State) (w : Word) :
    (s.setPc w).st = s.st := rfl
@[simp] theorem State.setPc_fb (s : State) (w : Word) :
    (s.setPc w).fb = s.fb := rfl
@[simp] theorem State.setPc_keys (s : State) (w : Word) :
    (s.setPc w).keys = s.keys := rfl
@[simp] theorem State.setPc_mem (s : State) (w : Word) :
    (s.setPc w).mem = s.mem := rfl
@[simp] theorem State.setPc_faulted (s : State) (w : Word) :
    (s.setPc w).faulted = s.faulted := rfl
@[simp] theorem State.setPc_faultCause (s : State) (w : Word) :
    (s.setPc w).faultCause = s.faultCause := rfl
@[simp] theorem State.setPc_faultPc (s : State) (w : Word) :
    (s.setPc w).faultPc = s.faultPc := rfl
@[simp] theorem State.setPc_faultOpcode (s : State) (w : Word) :
    (s.setPc w).faultOpcode = s.faultOpcode := rfl
@[simp] theorem State.setPc_faultInfo (s : State) (w : Word) :
    (s.setPc w).faultInfo = s.faultInfo := rfl
@[simp] theorem State.setPc_opcode (s : State) (w : Word) :
    (s.setPc w).opcode = s.opcode := rfl
@[simp] theorem State.setPc_randIn (s : State) (w : Word) :
    (s.setPc w).randIn = s.randIn := rfl
@[simp] theorem State.setPc_randCount (s : State) (w : Word) :
    (s.setPc w).randCount = s.randCount := rfl

/-! ### `State.setDt` -/

@[simp] theorem State.setDt_config (s : State) (b : Byte) :
    (s.setDt b).config = s.config := rfl
@[simp] theorem State.setDt_v (s : State) (b : Byte) :
    (s.setDt b).v = s.v := rfl
@[simp] theorem State.setDt_index (s : State) (b : Byte) :
    (s.setDt b).index = s.index := rfl
@[simp] theorem State.setDt_pc (s : State) (b : Byte) :
    (s.setDt b).pc = s.pc := rfl
@[simp] theorem State.setDt_sp (s : State) (b : Byte) :
    (s.setDt b).sp = s.sp := rfl
@[simp] theorem State.setDt_stack (s : State) (b : Byte) :
    (s.setDt b).stack = s.stack := rfl
@[simp] theorem State.setDt_dt (s : State) (b : Byte) :
    (s.setDt b).dt = b := rfl
@[simp] theorem State.setDt_st (s : State) (b : Byte) :
    (s.setDt b).st = s.st := rfl
@[simp] theorem State.setDt_fb (s : State) (b : Byte) :
    (s.setDt b).fb = s.fb := rfl
@[simp] theorem State.setDt_keys (s : State) (b : Byte) :
    (s.setDt b).keys = s.keys := rfl
@[simp] theorem State.setDt_mem (s : State) (b : Byte) :
    (s.setDt b).mem = s.mem := rfl
@[simp] theorem State.setDt_faulted (s : State) (b : Byte) :
    (s.setDt b).faulted = s.faulted := rfl
@[simp] theorem State.setDt_faultCause (s : State) (b : Byte) :
    (s.setDt b).faultCause = s.faultCause := rfl
@[simp] theorem State.setDt_faultPc (s : State) (b : Byte) :
    (s.setDt b).faultPc = s.faultPc := rfl
@[simp] theorem State.setDt_faultOpcode (s : State) (b : Byte) :
    (s.setDt b).faultOpcode = s.faultOpcode := rfl
@[simp] theorem State.setDt_faultInfo (s : State) (b : Byte) :
    (s.setDt b).faultInfo = s.faultInfo := rfl
@[simp] theorem State.setDt_opcode (s : State) (b : Byte) :
    (s.setDt b).opcode = s.opcode := rfl
@[simp] theorem State.setDt_randIn (s : State) (b : Byte) :
    (s.setDt b).randIn = s.randIn := rfl
@[simp] theorem State.setDt_randCount (s : State) (b : Byte) :
    (s.setDt b).randCount = s.randCount := rfl

/-! ### `State.setSt` -/

@[simp] theorem State.setSt_config (s : State) (b : Byte) :
    (s.setSt b).config = s.config := rfl
@[simp] theorem State.setSt_v (s : State) (b : Byte) :
    (s.setSt b).v = s.v := rfl
@[simp] theorem State.setSt_index (s : State) (b : Byte) :
    (s.setSt b).index = s.index := rfl
@[simp] theorem State.setSt_pc (s : State) (b : Byte) :
    (s.setSt b).pc = s.pc := rfl
@[simp] theorem State.setSt_sp (s : State) (b : Byte) :
    (s.setSt b).sp = s.sp := rfl
@[simp] theorem State.setSt_stack (s : State) (b : Byte) :
    (s.setSt b).stack = s.stack := rfl
@[simp] theorem State.setSt_dt (s : State) (b : Byte) :
    (s.setSt b).dt = s.dt := rfl
@[simp] theorem State.setSt_st (s : State) (b : Byte) :
    (s.setSt b).st = b := rfl
@[simp] theorem State.setSt_fb (s : State) (b : Byte) :
    (s.setSt b).fb = s.fb := rfl
@[simp] theorem State.setSt_keys (s : State) (b : Byte) :
    (s.setSt b).keys = s.keys := rfl
@[simp] theorem State.setSt_mem (s : State) (b : Byte) :
    (s.setSt b).mem = s.mem := rfl
@[simp] theorem State.setSt_faulted (s : State) (b : Byte) :
    (s.setSt b).faulted = s.faulted := rfl
@[simp] theorem State.setSt_faultCause (s : State) (b : Byte) :
    (s.setSt b).faultCause = s.faultCause := rfl
@[simp] theorem State.setSt_faultPc (s : State) (b : Byte) :
    (s.setSt b).faultPc = s.faultPc := rfl
@[simp] theorem State.setSt_faultOpcode (s : State) (b : Byte) :
    (s.setSt b).faultOpcode = s.faultOpcode := rfl
@[simp] theorem State.setSt_faultInfo (s : State) (b : Byte) :
    (s.setSt b).faultInfo = s.faultInfo := rfl
@[simp] theorem State.setSt_opcode (s : State) (b : Byte) :
    (s.setSt b).opcode = s.opcode := rfl
@[simp] theorem State.setSt_randIn (s : State) (b : Byte) :
    (s.setSt b).randIn = s.randIn := rfl
@[simp] theorem State.setSt_randCount (s : State) (b : Byte) :
    (s.setSt b).randCount = s.randCount := rfl

/-! ### `State.setFb` -/

@[simp] theorem State.setFb_config (s : State) (fb : FrameBuffer) :
    (s.setFb fb).config = s.config := rfl
@[simp] theorem State.setFb_v (s : State) (fb : FrameBuffer) :
    (s.setFb fb).v = s.v := rfl
@[simp] theorem State.setFb_index (s : State) (fb : FrameBuffer) :
    (s.setFb fb).index = s.index := rfl
@[simp] theorem State.setFb_pc (s : State) (fb : FrameBuffer) :
    (s.setFb fb).pc = s.pc := rfl
@[simp] theorem State.setFb_sp (s : State) (fb : FrameBuffer) :
    (s.setFb fb).sp = s.sp := rfl
@[simp] theorem State.setFb_stack (s : State) (fb : FrameBuffer) :
    (s.setFb fb).stack = s.stack := rfl
@[simp] theorem State.setFb_dt (s : State) (fb : FrameBuffer) :
    (s.setFb fb).dt = s.dt := rfl
@[simp] theorem State.setFb_st (s : State) (fb : FrameBuffer) :
    (s.setFb fb).st = s.st := rfl
@[simp] theorem State.setFb_fb (s : State) (fb : FrameBuffer) :
    (s.setFb fb).fb = fb := rfl
@[simp] theorem State.setFb_keys (s : State) (fb : FrameBuffer) :
    (s.setFb fb).keys = s.keys := rfl
@[simp] theorem State.setFb_mem (s : State) (fb : FrameBuffer) :
    (s.setFb fb).mem = s.mem := rfl
@[simp] theorem State.setFb_faulted (s : State) (fb : FrameBuffer) :
    (s.setFb fb).faulted = s.faulted := rfl
@[simp] theorem State.setFb_faultCause (s : State) (fb : FrameBuffer) :
    (s.setFb fb).faultCause = s.faultCause := rfl
@[simp] theorem State.setFb_faultPc (s : State) (fb : FrameBuffer) :
    (s.setFb fb).faultPc = s.faultPc := rfl
@[simp] theorem State.setFb_faultOpcode (s : State) (fb : FrameBuffer) :
    (s.setFb fb).faultOpcode = s.faultOpcode := rfl
@[simp] theorem State.setFb_faultInfo (s : State) (fb : FrameBuffer) :
    (s.setFb fb).faultInfo = s.faultInfo := rfl
@[simp] theorem State.setFb_opcode (s : State) (fb : FrameBuffer) :
    (s.setFb fb).opcode = s.opcode := rfl
@[simp] theorem State.setFb_randIn (s : State) (fb : FrameBuffer) :
    (s.setFb fb).randIn = s.randIn := rfl
@[simp] theorem State.setFb_randCount (s : State) (fb : FrameBuffer) :
    (s.setFb fb).randCount = s.randCount := rfl

/-! ### `State.setRegsUpTo` -/

@[simp] theorem State.setRegsUpTo_config (s : State) (x : Reg) (l : List Byte) :
    (s.setRegsUpTo x l).config = s.config := rfl
@[simp] theorem State.setRegsUpTo_v (s : State) (x : Reg) (l : List Byte) :
    (s.setRegsUpTo x l).v = Vector.ofFn fun i : Fin 16 => if i ≤ x then l.getD i.val 0 else s.v[i] := rfl
@[simp] theorem State.setRegsUpTo_index (s : State) (x : Reg) (l : List Byte) :
    (s.setRegsUpTo x l).index = s.index := rfl
@[simp] theorem State.setRegsUpTo_pc (s : State) (x : Reg) (l : List Byte) :
    (s.setRegsUpTo x l).pc = s.pc := rfl
@[simp] theorem State.setRegsUpTo_sp (s : State) (x : Reg) (l : List Byte) :
    (s.setRegsUpTo x l).sp = s.sp := rfl
@[simp] theorem State.setRegsUpTo_stack (s : State) (x : Reg) (l : List Byte) :
    (s.setRegsUpTo x l).stack = s.stack := rfl
@[simp] theorem State.setRegsUpTo_dt (s : State) (x : Reg) (l : List Byte) :
    (s.setRegsUpTo x l).dt = s.dt := rfl
@[simp] theorem State.setRegsUpTo_st (s : State) (x : Reg) (l : List Byte) :
    (s.setRegsUpTo x l).st = s.st := rfl
@[simp] theorem State.setRegsUpTo_fb (s : State) (x : Reg) (l : List Byte) :
    (s.setRegsUpTo x l).fb = s.fb := rfl
@[simp] theorem State.setRegsUpTo_keys (s : State) (x : Reg) (l : List Byte) :
    (s.setRegsUpTo x l).keys = s.keys := rfl
@[simp] theorem State.setRegsUpTo_mem (s : State) (x : Reg) (l : List Byte) :
    (s.setRegsUpTo x l).mem = s.mem := rfl
@[simp] theorem State.setRegsUpTo_faulted (s : State) (x : Reg) (l : List Byte) :
    (s.setRegsUpTo x l).faulted = s.faulted := rfl
@[simp] theorem State.setRegsUpTo_faultCause (s : State) (x : Reg) (l : List Byte) :
    (s.setRegsUpTo x l).faultCause = s.faultCause := rfl
@[simp] theorem State.setRegsUpTo_faultPc (s : State) (x : Reg) (l : List Byte) :
    (s.setRegsUpTo x l).faultPc = s.faultPc := rfl
@[simp] theorem State.setRegsUpTo_faultOpcode (s : State) (x : Reg) (l : List Byte) :
    (s.setRegsUpTo x l).faultOpcode = s.faultOpcode := rfl
@[simp] theorem State.setRegsUpTo_faultInfo (s : State) (x : Reg) (l : List Byte) :
    (s.setRegsUpTo x l).faultInfo = s.faultInfo := rfl
@[simp] theorem State.setRegsUpTo_opcode (s : State) (x : Reg) (l : List Byte) :
    (s.setRegsUpTo x l).opcode = s.opcode := rfl
@[simp] theorem State.setRegsUpTo_randIn (s : State) (x : Reg) (l : List Byte) :
    (s.setRegsUpTo x l).randIn = s.randIn := rfl
@[simp] theorem State.setRegsUpTo_randCount (s : State) (x : Reg) (l : List Byte) :
    (s.setRegsUpTo x l).randCount = s.randCount := rfl

/-! ### `State.skipIf` -/

@[simp] theorem State.skipIf_config (s : State) (c : Bool) :
    (s.skipIf c).config = s.config := rfl
@[simp] theorem State.skipIf_v (s : State) (c : Bool) :
    (s.skipIf c).v = s.v := rfl
@[simp] theorem State.skipIf_index (s : State) (c : Bool) :
    (s.skipIf c).index = s.index := rfl
@[simp] theorem State.skipIf_pc (s : State) (c : Bool) :
    (s.skipIf c).pc = if c then s.pc + 2 else s.pc := rfl
@[simp] theorem State.skipIf_sp (s : State) (c : Bool) :
    (s.skipIf c).sp = s.sp := rfl
@[simp] theorem State.skipIf_stack (s : State) (c : Bool) :
    (s.skipIf c).stack = s.stack := rfl
@[simp] theorem State.skipIf_dt (s : State) (c : Bool) :
    (s.skipIf c).dt = s.dt := rfl
@[simp] theorem State.skipIf_st (s : State) (c : Bool) :
    (s.skipIf c).st = s.st := rfl
@[simp] theorem State.skipIf_fb (s : State) (c : Bool) :
    (s.skipIf c).fb = s.fb := rfl
@[simp] theorem State.skipIf_keys (s : State) (c : Bool) :
    (s.skipIf c).keys = s.keys := rfl
@[simp] theorem State.skipIf_mem (s : State) (c : Bool) :
    (s.skipIf c).mem = s.mem := rfl
@[simp] theorem State.skipIf_faulted (s : State) (c : Bool) :
    (s.skipIf c).faulted = s.faulted := rfl
@[simp] theorem State.skipIf_faultCause (s : State) (c : Bool) :
    (s.skipIf c).faultCause = s.faultCause := rfl
@[simp] theorem State.skipIf_faultPc (s : State) (c : Bool) :
    (s.skipIf c).faultPc = s.faultPc := rfl
@[simp] theorem State.skipIf_faultOpcode (s : State) (c : Bool) :
    (s.skipIf c).faultOpcode = s.faultOpcode := rfl
@[simp] theorem State.skipIf_faultInfo (s : State) (c : Bool) :
    (s.skipIf c).faultInfo = s.faultInfo := rfl
@[simp] theorem State.skipIf_opcode (s : State) (c : Bool) :
    (s.skipIf c).opcode = s.opcode := rfl
@[simp] theorem State.skipIf_randIn (s : State) (c : Bool) :
    (s.skipIf c).randIn = s.randIn := rfl
@[simp] theorem State.skipIf_randCount (s : State) (c : Bool) :
    (s.skipIf c).randCount = s.randCount := rfl

/-! ### `State.storeBytes` -/

@[simp] theorem State.storeBytes_config (s : State) (a : Nat) (l : List Byte) :
    (s.storeBytes a l).config = s.config := rfl
@[simp] theorem State.storeBytes_v (s : State) (a : Nat) (l : List Byte) :
    (s.storeBytes a l).v = s.v := rfl
@[simp] theorem State.storeBytes_index (s : State) (a : Nat) (l : List Byte) :
    (s.storeBytes a l).index = s.index := rfl
@[simp] theorem State.storeBytes_pc (s : State) (a : Nat) (l : List Byte) :
    (s.storeBytes a l).pc = s.pc := rfl
@[simp] theorem State.storeBytes_sp (s : State) (a : Nat) (l : List Byte) :
    (s.storeBytes a l).sp = s.sp := rfl
@[simp] theorem State.storeBytes_stack (s : State) (a : Nat) (l : List Byte) :
    (s.storeBytes a l).stack = s.stack := rfl
@[simp] theorem State.storeBytes_dt (s : State) (a : Nat) (l : List Byte) :
    (s.storeBytes a l).dt = s.dt := rfl
@[simp] theorem State.storeBytes_st (s : State) (a : Nat) (l : List Byte) :
    (s.storeBytes a l).st = s.st := rfl
@[simp] theorem State.storeBytes_fb (s : State) (a : Nat) (l : List Byte) :
    (s.storeBytes a l).fb = s.fb := rfl
@[simp] theorem State.storeBytes_keys (s : State) (a : Nat) (l : List Byte) :
    (s.storeBytes a l).keys = s.keys := rfl
@[simp] theorem State.storeBytes_mem (s : State) (a : Nat) (l : List Byte) :
    (s.storeBytes a l).mem = Memory.writeBytes s.config.font s.mem a l := rfl
@[simp] theorem State.storeBytes_faulted (s : State) (a : Nat) (l : List Byte) :
    (s.storeBytes a l).faulted = s.faulted := rfl
@[simp] theorem State.storeBytes_faultCause (s : State) (a : Nat) (l : List Byte) :
    (s.storeBytes a l).faultCause = s.faultCause := rfl
@[simp] theorem State.storeBytes_faultPc (s : State) (a : Nat) (l : List Byte) :
    (s.storeBytes a l).faultPc = s.faultPc := rfl
@[simp] theorem State.storeBytes_faultOpcode (s : State) (a : Nat) (l : List Byte) :
    (s.storeBytes a l).faultOpcode = s.faultOpcode := rfl
@[simp] theorem State.storeBytes_faultInfo (s : State) (a : Nat) (l : List Byte) :
    (s.storeBytes a l).faultInfo = s.faultInfo := rfl
@[simp] theorem State.storeBytes_opcode (s : State) (a : Nat) (l : List Byte) :
    (s.storeBytes a l).opcode = s.opcode := rfl
@[simp] theorem State.storeBytes_randIn (s : State) (a : Nat) (l : List Byte) :
    (s.storeBytes a l).randIn = s.randIn := rfl
@[simp] theorem State.storeBytes_randCount (s : State) (a : Nat) (l : List Byte) :
    (s.storeBytes a l).randCount = s.randCount := rfl

/-! ### `State.push` -/

@[simp] theorem State.push_config (s : State) (w : Word) (h : s.sp.val ≠ 16) :
    (s.push w h).config = s.config := rfl
@[simp] theorem State.push_v (s : State) (w : Word) (h : s.sp.val ≠ 16) :
    (s.push w h).v = s.v := rfl
@[simp] theorem State.push_index (s : State) (w : Word) (h : s.sp.val ≠ 16) :
    (s.push w h).index = s.index := rfl
@[simp] theorem State.push_pc (s : State) (w : Word) (h : s.sp.val ≠ 16) :
    (s.push w h).pc = s.pc := rfl
@[simp] theorem State.push_sp (s : State) (w : Word) (h : s.sp.val ≠ 16) :
    (s.push w h).sp = ⟨s.sp.val + 1, by have := s.sp.isLt; omega⟩ := rfl
@[simp] theorem State.push_stack (s : State) (w : Word) (h : s.sp.val ≠ 16) :
    (s.push w h).stack = s.stack.set s.sp.val w (by have := s.sp.isLt; omega) := rfl
@[simp] theorem State.push_dt (s : State) (w : Word) (h : s.sp.val ≠ 16) :
    (s.push w h).dt = s.dt := rfl
@[simp] theorem State.push_st (s : State) (w : Word) (h : s.sp.val ≠ 16) :
    (s.push w h).st = s.st := rfl
@[simp] theorem State.push_fb (s : State) (w : Word) (h : s.sp.val ≠ 16) :
    (s.push w h).fb = s.fb := rfl
@[simp] theorem State.push_keys (s : State) (w : Word) (h : s.sp.val ≠ 16) :
    (s.push w h).keys = s.keys := rfl
@[simp] theorem State.push_mem (s : State) (w : Word) (h : s.sp.val ≠ 16) :
    (s.push w h).mem = s.mem := rfl
@[simp] theorem State.push_faulted (s : State) (w : Word) (h : s.sp.val ≠ 16) :
    (s.push w h).faulted = s.faulted := rfl
@[simp] theorem State.push_faultCause (s : State) (w : Word) (h : s.sp.val ≠ 16) :
    (s.push w h).faultCause = s.faultCause := rfl
@[simp] theorem State.push_faultPc (s : State) (w : Word) (h : s.sp.val ≠ 16) :
    (s.push w h).faultPc = s.faultPc := rfl
@[simp] theorem State.push_faultOpcode (s : State) (w : Word) (h : s.sp.val ≠ 16) :
    (s.push w h).faultOpcode = s.faultOpcode := rfl
@[simp] theorem State.push_faultInfo (s : State) (w : Word) (h : s.sp.val ≠ 16) :
    (s.push w h).faultInfo = s.faultInfo := rfl
@[simp] theorem State.push_opcode (s : State) (w : Word) (h : s.sp.val ≠ 16) :
    (s.push w h).opcode = s.opcode := rfl
@[simp] theorem State.push_randIn (s : State) (w : Word) (h : s.sp.val ≠ 16) :
    (s.push w h).randIn = s.randIn := rfl
@[simp] theorem State.push_randCount (s : State) (w : Word) (h : s.sp.val ≠ 16) :
    (s.push w h).randCount = s.randCount := rfl

/-! ### `State.popPc` -/

@[simp] theorem State.popPc_config (s : State) (h : s.sp.val ≠ 0) :
    (s.popPc h).config = s.config := rfl
@[simp] theorem State.popPc_v (s : State) (h : s.sp.val ≠ 0) :
    (s.popPc h).v = s.v := rfl
@[simp] theorem State.popPc_index (s : State) (h : s.sp.val ≠ 0) :
    (s.popPc h).index = s.index := rfl
@[simp] theorem State.popPc_pc (s : State) (h : s.sp.val ≠ 0) :
    (s.popPc h).pc = s.stack[s.sp.val - 1]'(by have := s.sp.isLt; omega) := rfl
@[simp] theorem State.popPc_sp (s : State) (h : s.sp.val ≠ 0) :
    (s.popPc h).sp = ⟨s.sp.val - 1, by have := s.sp.isLt; omega⟩ := rfl
@[simp] theorem State.popPc_stack (s : State) (h : s.sp.val ≠ 0) :
    (s.popPc h).stack = s.stack := rfl
@[simp] theorem State.popPc_dt (s : State) (h : s.sp.val ≠ 0) :
    (s.popPc h).dt = s.dt := rfl
@[simp] theorem State.popPc_st (s : State) (h : s.sp.val ≠ 0) :
    (s.popPc h).st = s.st := rfl
@[simp] theorem State.popPc_fb (s : State) (h : s.sp.val ≠ 0) :
    (s.popPc h).fb = s.fb := rfl
@[simp] theorem State.popPc_keys (s : State) (h : s.sp.val ≠ 0) :
    (s.popPc h).keys = s.keys := rfl
@[simp] theorem State.popPc_mem (s : State) (h : s.sp.val ≠ 0) :
    (s.popPc h).mem = s.mem := rfl
@[simp] theorem State.popPc_faulted (s : State) (h : s.sp.val ≠ 0) :
    (s.popPc h).faulted = s.faulted := rfl
@[simp] theorem State.popPc_faultCause (s : State) (h : s.sp.val ≠ 0) :
    (s.popPc h).faultCause = s.faultCause := rfl
@[simp] theorem State.popPc_faultPc (s : State) (h : s.sp.val ≠ 0) :
    (s.popPc h).faultPc = s.faultPc := rfl
@[simp] theorem State.popPc_faultOpcode (s : State) (h : s.sp.val ≠ 0) :
    (s.popPc h).faultOpcode = s.faultOpcode := rfl
@[simp] theorem State.popPc_faultInfo (s : State) (h : s.sp.val ≠ 0) :
    (s.popPc h).faultInfo = s.faultInfo := rfl
@[simp] theorem State.popPc_opcode (s : State) (h : s.sp.val ≠ 0) :
    (s.popPc h).opcode = s.opcode := rfl
@[simp] theorem State.popPc_randIn (s : State) (h : s.sp.val ≠ 0) :
    (s.popPc h).randIn = s.randIn := rfl
@[simp] theorem State.popPc_randCount (s : State) (h : s.sp.val ≠ 0) :
    (s.popPc h).randCount = s.randCount := rfl

/-! ### `State.raise` -/

@[simp] theorem State.raise_config (s : State) (r : FaultRaise) :
    (s.raise r).config = s.config := rfl
@[simp] theorem State.raise_v (s : State) (r : FaultRaise) :
    (s.raise r).v = s.v := rfl
@[simp] theorem State.raise_index (s : State) (r : FaultRaise) :
    (s.raise r).index = s.index := rfl
@[simp] theorem State.raise_pc (s : State) (r : FaultRaise) :
    (s.raise r).pc = s.pc - 2 := rfl
@[simp] theorem State.raise_sp (s : State) (r : FaultRaise) :
    (s.raise r).sp = s.sp := rfl
@[simp] theorem State.raise_stack (s : State) (r : FaultRaise) :
    (s.raise r).stack = s.stack := rfl
@[simp] theorem State.raise_dt (s : State) (r : FaultRaise) :
    (s.raise r).dt = s.dt := rfl
@[simp] theorem State.raise_st (s : State) (r : FaultRaise) :
    (s.raise r).st = s.st := rfl
@[simp] theorem State.raise_fb (s : State) (r : FaultRaise) :
    (s.raise r).fb = s.fb := rfl
@[simp] theorem State.raise_keys (s : State) (r : FaultRaise) :
    (s.raise r).keys = s.keys := rfl
@[simp] theorem State.raise_mem (s : State) (r : FaultRaise) :
    (s.raise r).mem = s.mem := rfl
@[simp] theorem State.raise_faulted (s : State) (r : FaultRaise) :
    (s.raise r).faulted = true := rfl
@[simp] theorem State.raise_faultCause (s : State) (r : FaultRaise) :
    (s.raise r).faultCause = r.cause.code := rfl
@[simp] theorem State.raise_faultPc (s : State) (r : FaultRaise) :
    (s.raise r).faultPc = s.pc - 2 := rfl
@[simp] theorem State.raise_faultOpcode (s : State) (r : FaultRaise) :
    (s.raise r).faultOpcode = if r.cause = .fetchRange then 0 else s.opcode := rfl
@[simp] theorem State.raise_faultInfo (s : State) (r : FaultRaise) :
    (s.raise r).faultInfo = r.info := rfl
@[simp] theorem State.raise_opcode (s : State) (r : FaultRaise) :
    (s.raise r).opcode = s.opcode := rfl
@[simp] theorem State.raise_randIn (s : State) (r : FaultRaise) :
    (s.raise r).randIn = s.randIn := rfl
@[simp] theorem State.raise_randCount (s : State) (r : FaultRaise) :
    (s.raise r).randCount = s.randCount := rfl

/-! ### `State.takeFault` -/

@[simp] theorem State.takeFault_config (s : State) (r : FaultRaise) (p op : Word) :
    (s.takeFault r p op).config = s.config := rfl
@[simp] theorem State.takeFault_v (s : State) (r : FaultRaise) (p op : Word) :
    (s.takeFault r p op).v = s.v := rfl
@[simp] theorem State.takeFault_index (s : State) (r : FaultRaise) (p op : Word) :
    (s.takeFault r p op).index = s.index := rfl
@[simp] theorem State.takeFault_pc (s : State) (r : FaultRaise) (p op : Word) :
    (s.takeFault r p op).pc = p := rfl
@[simp] theorem State.takeFault_sp (s : State) (r : FaultRaise) (p op : Word) :
    (s.takeFault r p op).sp = s.sp := rfl
@[simp] theorem State.takeFault_stack (s : State) (r : FaultRaise) (p op : Word) :
    (s.takeFault r p op).stack = s.stack := rfl
@[simp] theorem State.takeFault_dt (s : State) (r : FaultRaise) (p op : Word) :
    (s.takeFault r p op).dt = s.dt := rfl
@[simp] theorem State.takeFault_st (s : State) (r : FaultRaise) (p op : Word) :
    (s.takeFault r p op).st = s.st := rfl
@[simp] theorem State.takeFault_fb (s : State) (r : FaultRaise) (p op : Word) :
    (s.takeFault r p op).fb = s.fb := rfl
@[simp] theorem State.takeFault_keys (s : State) (r : FaultRaise) (p op : Word) :
    (s.takeFault r p op).keys = s.keys := rfl
@[simp] theorem State.takeFault_mem (s : State) (r : FaultRaise) (p op : Word) :
    (s.takeFault r p op).mem = s.mem := rfl
@[simp] theorem State.takeFault_faulted (s : State) (r : FaultRaise) (p op : Word) :
    (s.takeFault r p op).faulted = true := rfl
@[simp] theorem State.takeFault_faultCause (s : State) (r : FaultRaise) (p op : Word) :
    (s.takeFault r p op).faultCause = r.cause.code := rfl
@[simp] theorem State.takeFault_faultPc (s : State) (r : FaultRaise) (p op : Word) :
    (s.takeFault r p op).faultPc = p := rfl
@[simp] theorem State.takeFault_faultOpcode (s : State) (r : FaultRaise) (p op : Word) :
    (s.takeFault r p op).faultOpcode = if r.cause = .fetchRange then 0 else op := rfl
@[simp] theorem State.takeFault_faultInfo (s : State) (r : FaultRaise) (p op : Word) :
    (s.takeFault r p op).faultInfo = r.info := rfl
@[simp] theorem State.takeFault_opcode (s : State) (r : FaultRaise) (p op : Word) :
    (s.takeFault r p op).opcode = s.opcode := rfl
@[simp] theorem State.takeFault_randIn (s : State) (r : FaultRaise) (p op : Word) :
    (s.takeFault r p op).randIn = s.randIn := rfl
@[simp] theorem State.takeFault_randCount (s : State) (r : FaultRaise) (p op : Word) :
    (s.takeFault r p op).randCount = s.randCount := rfl

/-! ### `State.clearFault` -/

@[simp] theorem State.clearFault_config (s : State) :
    (s.clearFault).config = s.config := rfl
@[simp] theorem State.clearFault_v (s : State) :
    (s.clearFault).v = s.v := rfl
@[simp] theorem State.clearFault_index (s : State) :
    (s.clearFault).index = s.index := rfl
@[simp] theorem State.clearFault_pc (s : State) :
    (s.clearFault).pc = s.pc := rfl
@[simp] theorem State.clearFault_sp (s : State) :
    (s.clearFault).sp = s.sp := rfl
@[simp] theorem State.clearFault_stack (s : State) :
    (s.clearFault).stack = s.stack := rfl
@[simp] theorem State.clearFault_dt (s : State) :
    (s.clearFault).dt = s.dt := rfl
@[simp] theorem State.clearFault_st (s : State) :
    (s.clearFault).st = s.st := rfl
@[simp] theorem State.clearFault_fb (s : State) :
    (s.clearFault).fb = s.fb := rfl
@[simp] theorem State.clearFault_keys (s : State) :
    (s.clearFault).keys = s.keys := rfl
@[simp] theorem State.clearFault_mem (s : State) :
    (s.clearFault).mem = s.mem := rfl
@[simp] theorem State.clearFault_faulted (s : State) :
    (s.clearFault).faulted = false := rfl
@[simp] theorem State.clearFault_faultCause (s : State) :
    (s.clearFault).faultCause = 0 := rfl
@[simp] theorem State.clearFault_faultPc (s : State) :
    (s.clearFault).faultPc = 0 := rfl
@[simp] theorem State.clearFault_faultOpcode (s : State) :
    (s.clearFault).faultOpcode = 0 := rfl
@[simp] theorem State.clearFault_faultInfo (s : State) :
    (s.clearFault).faultInfo = 0 := rfl
@[simp] theorem State.clearFault_opcode (s : State) :
    (s.clearFault).opcode = s.opcode := rfl
@[simp] theorem State.clearFault_randIn (s : State) :
    (s.clearFault).randIn = s.randIn := rfl
@[simp] theorem State.clearFault_randCount (s : State) :
    (s.clearFault).randCount = s.randCount := rfl

/-! ### `State.consumeRand` -/

@[simp] theorem State.consumeRand_config (s : State) :
    (s.consumeRand).config = s.config := rfl
@[simp] theorem State.consumeRand_v (s : State) :
    (s.consumeRand).v = s.v := rfl
@[simp] theorem State.consumeRand_index (s : State) :
    (s.consumeRand).index = s.index := rfl
@[simp] theorem State.consumeRand_pc (s : State) :
    (s.consumeRand).pc = s.pc := rfl
@[simp] theorem State.consumeRand_sp (s : State) :
    (s.consumeRand).sp = s.sp := rfl
@[simp] theorem State.consumeRand_stack (s : State) :
    (s.consumeRand).stack = s.stack := rfl
@[simp] theorem State.consumeRand_dt (s : State) :
    (s.consumeRand).dt = s.dt := rfl
@[simp] theorem State.consumeRand_st (s : State) :
    (s.consumeRand).st = s.st := rfl
@[simp] theorem State.consumeRand_fb (s : State) :
    (s.consumeRand).fb = s.fb := rfl
@[simp] theorem State.consumeRand_keys (s : State) :
    (s.consumeRand).keys = s.keys := rfl
@[simp] theorem State.consumeRand_mem (s : State) :
    (s.consumeRand).mem = s.mem := rfl
@[simp] theorem State.consumeRand_faulted (s : State) :
    (s.consumeRand).faulted = s.faulted := rfl
@[simp] theorem State.consumeRand_faultCause (s : State) :
    (s.consumeRand).faultCause = s.faultCause := rfl
@[simp] theorem State.consumeRand_faultPc (s : State) :
    (s.consumeRand).faultPc = s.faultPc := rfl
@[simp] theorem State.consumeRand_faultOpcode (s : State) :
    (s.consumeRand).faultOpcode = s.faultOpcode := rfl
@[simp] theorem State.consumeRand_faultInfo (s : State) :
    (s.consumeRand).faultInfo = s.faultInfo := rfl
@[simp] theorem State.consumeRand_opcode (s : State) :
    (s.consumeRand).opcode = s.opcode := rfl
@[simp] theorem State.consumeRand_randIn (s : State) :
    (s.consumeRand).randIn = none := rfl
@[simp] theorem State.consumeRand_randCount (s : State) :
    (s.consumeRand).randCount = s.randCount + 1 := rfl

/-! ### `State.beginCycle` -/

@[simp] theorem State.beginCycle_config (s : State) (op : Word) :
    (s.beginCycle op).config = s.config := rfl
@[simp] theorem State.beginCycle_v (s : State) (op : Word) :
    (s.beginCycle op).v = s.v := rfl
@[simp] theorem State.beginCycle_index (s : State) (op : Word) :
    (s.beginCycle op).index = s.index := rfl
@[simp] theorem State.beginCycle_pc (s : State) (op : Word) :
    (s.beginCycle op).pc = s.pc + 2 := rfl
@[simp] theorem State.beginCycle_sp (s : State) (op : Word) :
    (s.beginCycle op).sp = s.sp := rfl
@[simp] theorem State.beginCycle_stack (s : State) (op : Word) :
    (s.beginCycle op).stack = s.stack := rfl
@[simp] theorem State.beginCycle_dt (s : State) (op : Word) :
    (s.beginCycle op).dt = s.dt := rfl
@[simp] theorem State.beginCycle_st (s : State) (op : Word) :
    (s.beginCycle op).st = s.st := rfl
@[simp] theorem State.beginCycle_fb (s : State) (op : Word) :
    (s.beginCycle op).fb = s.fb := rfl
@[simp] theorem State.beginCycle_keys (s : State) (op : Word) :
    (s.beginCycle op).keys = s.keys := rfl
@[simp] theorem State.beginCycle_mem (s : State) (op : Word) :
    (s.beginCycle op).mem = s.mem := rfl
@[simp] theorem State.beginCycle_faulted (s : State) (op : Word) :
    (s.beginCycle op).faulted = s.faulted := rfl
@[simp] theorem State.beginCycle_faultCause (s : State) (op : Word) :
    (s.beginCycle op).faultCause = s.faultCause := rfl
@[simp] theorem State.beginCycle_faultPc (s : State) (op : Word) :
    (s.beginCycle op).faultPc = s.faultPc := rfl
@[simp] theorem State.beginCycle_faultOpcode (s : State) (op : Word) :
    (s.beginCycle op).faultOpcode = s.faultOpcode := rfl
@[simp] theorem State.beginCycle_faultInfo (s : State) (op : Word) :
    (s.beginCycle op).faultInfo = s.faultInfo := rfl
@[simp] theorem State.beginCycle_opcode (s : State) (op : Word) :
    (s.beginCycle op).opcode = op := rfl
@[simp] theorem State.beginCycle_randIn (s : State) (op : Word) :
    (s.beginCycle op).randIn = s.randIn := rfl
@[simp] theorem State.beginCycle_randCount (s : State) (op : Word) :
    (s.beginCycle op).randCount = s.randCount := rfl

/-! ### `State.endCycle` -/

@[simp] theorem State.endCycle_config (s : State) :
    (s.endCycle).config = s.config := rfl
@[simp] theorem State.endCycle_v (s : State) :
    (s.endCycle).v = s.v := rfl
@[simp] theorem State.endCycle_index (s : State) :
    (s.endCycle).index = s.index := rfl
@[simp] theorem State.endCycle_pc (s : State) :
    (s.endCycle).pc = s.pc := rfl
@[simp] theorem State.endCycle_sp (s : State) :
    (s.endCycle).sp = s.sp := rfl
@[simp] theorem State.endCycle_stack (s : State) :
    (s.endCycle).stack = s.stack := rfl
@[simp] theorem State.endCycle_dt (s : State) :
    (s.endCycle).dt = s.dt := rfl
@[simp] theorem State.endCycle_st (s : State) :
    (s.endCycle).st = s.st := rfl
@[simp] theorem State.endCycle_fb (s : State) :
    (s.endCycle).fb = s.fb := rfl
@[simp] theorem State.endCycle_keys (s : State) :
    (s.endCycle).keys = s.keys := rfl
@[simp] theorem State.endCycle_mem (s : State) :
    (s.endCycle).mem = s.mem := rfl
@[simp] theorem State.endCycle_faulted (s : State) :
    (s.endCycle).faulted = s.faulted := rfl
@[simp] theorem State.endCycle_faultCause (s : State) :
    (s.endCycle).faultCause = s.faultCause := rfl
@[simp] theorem State.endCycle_faultPc (s : State) :
    (s.endCycle).faultPc = s.faultPc := rfl
@[simp] theorem State.endCycle_faultOpcode (s : State) :
    (s.endCycle).faultOpcode = s.faultOpcode := rfl
@[simp] theorem State.endCycle_faultInfo (s : State) :
    (s.endCycle).faultInfo = s.faultInfo := rfl
@[simp] theorem State.endCycle_opcode (s : State) :
    (s.endCycle).opcode = 0 := rfl
@[simp] theorem State.endCycle_randIn (s : State) :
    (s.endCycle).randIn = s.randIn := rfl
@[simp] theorem State.endCycle_randCount (s : State) :
    (s.endCycle).randCount = s.randCount := rfl

/-! ### `State.dropRand` -/

@[simp] theorem State.dropRand_config (s : State) :
    (s.dropRand).config = s.config := rfl
@[simp] theorem State.dropRand_v (s : State) :
    (s.dropRand).v = s.v := rfl
@[simp] theorem State.dropRand_index (s : State) :
    (s.dropRand).index = s.index := rfl
@[simp] theorem State.dropRand_pc (s : State) :
    (s.dropRand).pc = s.pc := rfl
@[simp] theorem State.dropRand_sp (s : State) :
    (s.dropRand).sp = s.sp := rfl
@[simp] theorem State.dropRand_stack (s : State) :
    (s.dropRand).stack = s.stack := rfl
@[simp] theorem State.dropRand_dt (s : State) :
    (s.dropRand).dt = s.dt := rfl
@[simp] theorem State.dropRand_st (s : State) :
    (s.dropRand).st = s.st := rfl
@[simp] theorem State.dropRand_fb (s : State) :
    (s.dropRand).fb = s.fb := rfl
@[simp] theorem State.dropRand_keys (s : State) :
    (s.dropRand).keys = s.keys := rfl
@[simp] theorem State.dropRand_mem (s : State) :
    (s.dropRand).mem = s.mem := rfl
@[simp] theorem State.dropRand_faulted (s : State) :
    (s.dropRand).faulted = s.faulted := rfl
@[simp] theorem State.dropRand_faultCause (s : State) :
    (s.dropRand).faultCause = s.faultCause := rfl
@[simp] theorem State.dropRand_faultPc (s : State) :
    (s.dropRand).faultPc = s.faultPc := rfl
@[simp] theorem State.dropRand_faultOpcode (s : State) :
    (s.dropRand).faultOpcode = s.faultOpcode := rfl
@[simp] theorem State.dropRand_faultInfo (s : State) :
    (s.dropRand).faultInfo = s.faultInfo := rfl
@[simp] theorem State.dropRand_opcode (s : State) :
    (s.dropRand).opcode = s.opcode := rfl
@[simp] theorem State.dropRand_randIn (s : State) :
    (s.dropRand).randIn = none := rfl
@[simp] theorem State.dropRand_randCount (s : State) :
    (s.dropRand).randCount = s.randCount := rfl

/-! ### `State.writeRF` -/

@[simp] theorem State.writeRF_config (s : State) (x : Reg) (rf : ResultFlag) :
    (s.writeRF x rf).config = s.config := by
  unfold State.writeRF; split <;> rfl
/-- The register file after `WriteRF` (R82): the two writes in the order `VF_AS_DEST` sets. -/
@[simp] theorem State.writeRF_v (s : State) (x : Reg) (rf : ResultFlag) :
    (s.writeRF x rf).v = match s.config.vfAsDest with
      | .flagLast => (s.v.set x rf.result).set vf rf.flag
      | .resultLast => (s.v.set vf rf.flag).set x rf.result := by
  unfold State.writeRF; split <;> simp [*]
@[simp] theorem State.writeRF_index (s : State) (x : Reg) (rf : ResultFlag) :
    (s.writeRF x rf).index = s.index := by
  unfold State.writeRF; split <;> rfl
@[simp] theorem State.writeRF_pc (s : State) (x : Reg) (rf : ResultFlag) :
    (s.writeRF x rf).pc = s.pc := by
  unfold State.writeRF; split <;> rfl
@[simp] theorem State.writeRF_sp (s : State) (x : Reg) (rf : ResultFlag) :
    (s.writeRF x rf).sp = s.sp := by
  unfold State.writeRF; split <;> rfl
@[simp] theorem State.writeRF_stack (s : State) (x : Reg) (rf : ResultFlag) :
    (s.writeRF x rf).stack = s.stack := by
  unfold State.writeRF; split <;> rfl
@[simp] theorem State.writeRF_dt (s : State) (x : Reg) (rf : ResultFlag) :
    (s.writeRF x rf).dt = s.dt := by
  unfold State.writeRF; split <;> rfl
@[simp] theorem State.writeRF_st (s : State) (x : Reg) (rf : ResultFlag) :
    (s.writeRF x rf).st = s.st := by
  unfold State.writeRF; split <;> rfl
@[simp] theorem State.writeRF_fb (s : State) (x : Reg) (rf : ResultFlag) :
    (s.writeRF x rf).fb = s.fb := by
  unfold State.writeRF; split <;> rfl
@[simp] theorem State.writeRF_keys (s : State) (x : Reg) (rf : ResultFlag) :
    (s.writeRF x rf).keys = s.keys := by
  unfold State.writeRF; split <;> rfl
@[simp] theorem State.writeRF_mem (s : State) (x : Reg) (rf : ResultFlag) :
    (s.writeRF x rf).mem = s.mem := by
  unfold State.writeRF; split <;> rfl
@[simp] theorem State.writeRF_faulted (s : State) (x : Reg) (rf : ResultFlag) :
    (s.writeRF x rf).faulted = s.faulted := by
  unfold State.writeRF; split <;> rfl
@[simp] theorem State.writeRF_faultCause (s : State) (x : Reg) (rf : ResultFlag) :
    (s.writeRF x rf).faultCause = s.faultCause := by
  unfold State.writeRF; split <;> rfl
@[simp] theorem State.writeRF_faultPc (s : State) (x : Reg) (rf : ResultFlag) :
    (s.writeRF x rf).faultPc = s.faultPc := by
  unfold State.writeRF; split <;> rfl
@[simp] theorem State.writeRF_faultOpcode (s : State) (x : Reg) (rf : ResultFlag) :
    (s.writeRF x rf).faultOpcode = s.faultOpcode := by
  unfold State.writeRF; split <;> rfl
@[simp] theorem State.writeRF_faultInfo (s : State) (x : Reg) (rf : ResultFlag) :
    (s.writeRF x rf).faultInfo = s.faultInfo := by
  unfold State.writeRF; split <;> rfl
@[simp] theorem State.writeRF_opcode (s : State) (x : Reg) (rf : ResultFlag) :
    (s.writeRF x rf).opcode = s.opcode := by
  unfold State.writeRF; split <;> rfl
@[simp] theorem State.writeRF_randIn (s : State) (x : Reg) (rf : ResultFlag) :
    (s.writeRF x rf).randIn = s.randIn := by
  unfold State.writeRF; split <;> rfl
@[simp] theorem State.writeRF_randCount (s : State) (x : Reg) (rf : ResultFlag) :
    (s.writeRF x rf).randCount = s.randCount := by
  unfold State.writeRF; split <;> rfl

end Sys2Proof.Machine
end

