-- ==== Sys2Proof/Laws/Memory.lean ====
section
/-! SUPPORT. The laws of memory: what a read sees after a write, that every memory operation keeps the canonical form, and
everything `memRead` and `memWrite` can do (spec/20_memory.md R38 to R40). -/

namespace Sys2Proof.Machine

variable {font : FontTable} {m : Memory}

/-- A write leaves every other place alone. -/
theorem Memory.read_write_other (a c : Nat) (b : Byte) (h : c ≠ a) :
    Memory.read font (Memory.write font m a b) c = Memory.read font m c := by
  induction m with
  | nil => unfold Memory.write; split <;> simp [Memory.read, h]
  | cons cell rest ih =>
    obtain ⟨a', b'⟩ := cell
    simp only [Memory.write]
    split_ifs <;> simp_all [Memory.read]

/-- An address below every listed one reads as its reset contents. -/
theorem Memory.read_of_lt (a : Nat) (h : ∀ c ∈ m, a < c.1) : Memory.read font m a = Memory.initial font a := by
  induction m with
  | nil => rfl
  | cons cell rest ih =>
    have := h cell (by simp)
    simp only [Memory.read]
    rw [if_neg (by omega)]
    exact ih fun c hc => h c (by simp [hc])

/-- In a sorted memory the value written is the value read. -/
theorem Memory.read_write_same (a : Nat) (b : Byte) (h : m.Pairwise (fun c d => c.1 < d.1)) :
    Memory.read font (Memory.write font m a b) a = b := by
  induction m with
  | nil => unfold Memory.write; split <;> simp_all [Memory.read]
  | cons cell rest ih =>
    obtain ⟨a', b'⟩ := cell
    obtain ⟨hlt, hrest⟩ := List.pairwise_cons.mp h
    have hbelow (ha : a ≤ a') : ∀ c ∈ rest, a < c.1 := fun c hc => by have := hlt c hc; simp at this; omega
    simp only [Memory.write]
    split_ifs with h1 h2 h3 h4
    · rw [h2]
      refine Memory.read_of_lt a fun c hc => ?_
      rcases List.mem_cons.mp hc with rfl | hc
      · exact h1
      · exact hbelow (by omega) c hc
    · simp [Memory.read]
    · rw [h4]; exact Memory.read_of_lt a (hbelow (by omega))
    · simp [Memory.read]
    · simp [Memory.read, h3, ih hrest]

/-- A cell of a memory after a write is the one written or was there before. -/
theorem Memory.mem_write {a : Nat} {b : Byte} {c : Host.Cell} (h : c ∈ Memory.write font m a b) :
    (c = (a, b) ∧ b ≠ Memory.initial font a) ∨ c ∈ m := by
  induction m with
  | nil =>
    unfold Memory.write at h
    split at h <;> simp_all
  | cons cell rest ih =>
    obtain ⟨a', b'⟩ := cell
    simp only [Memory.write] at h
    split_ifs at h <;> simp only [List.mem_cons] at h ⊢
    all_goals grind

/-- A write keeps memory sorted. -/
theorem Memory.write_sorted (a : Nat) (b : Byte) (h : m.Pairwise (fun c d => c.1 < d.1)) :
    (Memory.write font m a b).Pairwise (fun c d => c.1 < d.1) := by
  induction m with
  | nil => unfold Memory.write; split <;> simp
  | cons cell rest ih =>
    obtain ⟨a', b'⟩ := cell
    obtain ⟨hlt, hrest⟩ := List.pairwise_cons.mp h
    simp only [Memory.write]
    split_ifs with h1 h2 h3 h4
    · exact h
    · refine List.pairwise_cons.mpr ⟨fun c hc => ?_, h⟩
      rcases List.mem_cons.mp hc with rfl | hc
      · exact h1
      · have := hlt c hc; simp at this ⊢; omega
    · exact hrest
    · exact List.pairwise_cons.mpr ⟨fun c hc => by have := hlt c hc; simp at this ⊢; omega, hrest⟩
    · refine List.pairwise_cons.mpr ⟨fun c hc => ?_, ih hrest⟩
      rcases Memory.mem_write hc with ⟨rfl, -⟩ | hc
      · simp; omega
      · exact hlt c hc

/-- A write inside the address space keeps the canonical form. -/
theorem Memory.write_wf (a : Nat) (b : Byte) (ha : a < 0x1000) (h : Memory.WF font m) :
    Memory.WF font (Memory.write font m a b) := by
  refine ⟨Memory.write_sorted a b h.1, fun c hc => ?_⟩
  rcases Memory.mem_write hc with ⟨rfl, hb⟩ | hc
  · exact ⟨ha, hb⟩
  · exact h.2 c hc

/-- Storing bytes inside the address space keeps the canonical form. -/
theorem Memory.writeBytes_wf (bytes : List Byte) (a : Nat) (ha : a + bytes.length ≤ 0x1000) (h : Memory.WF font m) :
    Memory.WF font (Memory.writeBytes font m a bytes) := by
  induction bytes generalizing m a with
  | nil => exact h
  | cons b bs ih =>
    simp only [List.length_cons] at ha
    exact ih (a + 1) (by omega) (Memory.write_wf a b (by omega) h)

/-- Storing bytes leaves every address outside the stored range alone. -/
theorem Memory.read_writeBytes_other (bytes : List Byte) (a c : Nat) (h : c < a ∨ a + bytes.length ≤ c) :
    Memory.read font (Memory.writeBytes font m a bytes) c = Memory.read font m c := by
  induction bytes generalizing m a with
  | nil => rfl
  | cons b bs ih =>
    simp only [List.length_cons] at h
    rw [Memory.writeBytes, ih (a + 1) (by omega), Memory.read_write_other a c b (by omega)]

/-- Storing bytes in a sorted memory: the k-th stored address reads as the k-th byte. -/
theorem Memory.read_writeBytes_same (bytes : List Byte) (a k : Nat) (hk : k < bytes.length)
    (h : m.Pairwise (fun c d => c.1 < d.1)) :
    Memory.read font (Memory.writeBytes font m a bytes) (a + k) = bytes[k] := by
  induction bytes generalizing m a k with
  | nil => simp at hk
  | cons b bs ih =>
    rw [Memory.writeBytes]
    cases k with
    | zero => simp [Memory.read_writeBytes_other, Memory.read_write_same a b h]
    | succ k =>
      have := ih (a + 1) k (by simpa using hk) (Memory.write_sorted (font := font) a b h)
      rw [show a + (k + 1) = a + 1 + k by omega, this]; simp

/-- `readByte` depends on the configuration and memory alone. -/
theorem State.readByte_congr {s t : State} (hc : t.config = s.config) (hm : t.mem = s.mem) (a : Nat) :
    t.readByte a = s.readByte a := by
  simp [State.readByte, hc, hm]

/-- What memory reads as outside the bytes stored. -/
theorem State.readByte_storeBytes_other (s : State) (bytes : List Byte) (a c : Nat)
    (h : c < a ∨ a + bytes.length ≤ c) : (s.storeBytes a bytes).readByte c = s.readByte c :=
  Memory.read_writeBytes_other bytes a c h

/-- What memory reads as at the bytes stored. -/
theorem State.readByte_storeBytes_same (s : State) (bytes : List Byte) (a k : Nat) (hk : k < bytes.length)
    (h : Memory.WF s.config.font s.mem) : (s.storeBytes a bytes).readByte (a + k) = bytes[k] :=
  Memory.read_writeBytes_same bytes a k hk h.1

/-- Everything `MemRead` can do (R39): the bytes in ascending order, or MEM_READ_RANGE when the last is past 0xFFF. -/
theorem memRead_cases (s : State) (a n : Nat) :
    (a + n - 1 ≤ 0xFFF ∧ memRead s a n = .ok ((List.range n).map fun k => s.readByte (a + k))) ∨
    (a + n - 1 > 0xFFF ∧ memRead s a n = .error ⟨.memReadRange, rangeInfo a⟩) := by
  unfold memRead
  split_ifs with h
  · exact .inr ⟨h, rfl⟩
  · exact .inl ⟨by omega, rfl⟩

/-- Everything `MemWrite` can do (R40): all bytes stored, or MEM_WRITE_RANGE and none. -/
theorem memWrite_cases (s : State) (a : Nat) (bytes : List Byte) :
    (a + bytes.length - 1 ≤ 0xFFF ∧ memWrite s a bytes = .ok (s.storeBytes a bytes)) ∨
    (a + bytes.length - 1 > 0xFFF ∧ memWrite s a bytes = .error ⟨.memWriteRange, rangeInfo a⟩) := by
  unfold memWrite
  split_ifs with h
  · exact .inr ⟨h, rfl⟩
  · exact .inl ⟨by omega, rfl⟩

end Sys2Proof.Machine
end

