-- ==== Sys2Proof/Laws/Registers.lean ====
section
/-! SUPPORT. What a register reads as after the named updates of the register file (spec/10_state.md R14, spec/41_alu.md R82,
spec/42_index_memory.md R100), and everything the operand forms with a fault can answer. -/

namespace Sys2Proof.Machine

/-- A register after one is written. -/
theorem State.setV_get (s : State) (x r : Reg) (b : Byte) :
    (s.setV x b).v[r] = if r = x then b else s.v[r] := by
  simp only [State.setV, Fin.getElem_fin, Vector.getElem_set]
  simp only [Fin.ext_iff, eq_comm]

/-- A register after `WriteRF`, whatever `VF_AS_DEST` is (R82): Vx and VF are written and no other. -/
theorem State.writeRF_get (s : State) (x r : Reg) (rf : ResultFlag) :
    (s.writeRF x rf).v[r] =
      if r = vf ∧ (x = vf → s.config.vfAsDest = .flagLast) then rf.flag
      else if r = x then rf.result else s.v[r] := by
  unfold State.writeRF
  cases h : s.config.vfAsDest <;> simp only [State.setV_get] <;> split_ifs <;> simp_all

/-- A register after `V[0..x]` are loaded (R100). -/
theorem State.setRegsUpTo_get (s : State) (x r : Reg) (bytes : List Byte) :
    (s.setRegsUpTo x bytes).v[r] = if r ≤ x then bytes.getD r.val 0 else s.v[r] := by
  simp [State.setRegsUpTo]

/-- Everything the key operand can be (R106). -/
theorem State.keyOperand_cases (s : State) (x : Reg) :
    (∃ k : Key, k.val = s.v[x].toNat ∧ s.keyOperand x = .ok k) ∨
    (s.v[x].toNat > 0xF ∧ s.keyOperand x = .error ⟨.keyRange, zext16 s.v[x]⟩) := by
  unfold State.keyOperand
  split_ifs with h
  · exact .inr ⟨h, rfl⟩
  · exact .inl ⟨_, rfl, rfl⟩

/-- Everything the index sum can be (R96). -/
theorem State.indexSum_cases (s : State) (x : Reg) :
    (s.index.toNat + s.v[x].toNat ≤ 0xFFFF ∧
      s.indexSum x = .ok (BitVec.ofNat 16 (s.index.toNat + s.v[x].toNat))) ∨
    (s.index.toNat + s.v[x].toNat > 0xFFFF ∧ s.indexSum x = .error ⟨.indexOverflow, zext16 s.v[x]⟩) := by
  unfold State.indexSum
  split_ifs with h
  · exact .inr ⟨h, rfl⟩
  · exact .inl ⟨by omega, rfl⟩

/-- The lowest pressed key: pressed, and no lower one is (R109, D19). -/
theorem State.lowestKey_eq_some (s : State) (k : Key) :
    s.lowestKey = some k ↔ s.keys[k] = true ∧ ∀ j : Key, j < k → s.keys[j] = false := by
  simp only [State.lowestKey, List.find?_eq_some_iff_getElem]
  constructor
  · rintro ⟨hk, i, hi, rfl, h⟩
    refine ⟨by simpa using hk, fun j hj => ?_⟩
    have := h j.val (Fin.lt_def.mp (by simpa using hj))
    simpa using this
  · rintro ⟨hk, h⟩
    refine ⟨by simpa using hk, k.val, by simp, by simp, fun j hj => ?_⟩
    have := h ⟨j, by omega⟩ (Fin.lt_def.mpr hj)
    simpa using this

/-- No key is found exactly when none is pressed (R109). -/
theorem State.lowestKey_eq_none (s : State) : s.lowestKey = none ↔ ∀ k : Key, s.keys[k] = false := by
  simp [State.lowestKey]

/-- Everything the sprite operand can be (R105): n = 0 reads nothing and never faults. -/
theorem State.spriteRows_cases (s : State) (n : Height) :
    (n.val = 0 ∧ s.spriteRows n = .ok []) ∨
    (n.val > 0 ∧ s.spriteRows n = memRead s s.index.toNat n.val) := by
  unfold State.spriteRows
  split_ifs with h
  · exact .inr ⟨h, rfl⟩
  · exact .inl ⟨by omega, rfl⟩

end Sys2Proof.Machine
end

