-- ==== Sys2Proof/Laws/Faults.lean ====
section
/-! SUPPORT. Taking a fault (spec/60_exceptions.md R115) and the shared tail of a handler with one fault condition. -/

namespace Sys2Proof.Machine

/-- The handler goes on with the value. -/
theorem orRaise_ok {α : Type} (s : State) (a : α) (k : α → State) : orRaise s (.ok a) k = .next (k a) := rfl

/-- The handler takes the fault. -/
theorem orRaise_error {α : Type} (s : State) (r : FaultRaise) (k : α → State) :
    orRaise s (.error r) k = .next (s.raise r) := rfl

/-- Everything the tail can do: a next state, of the one kind or the other. -/
theorem orRaise_next {α : Type} {s t : State} {e : Except FaultRaise α} {k : α → State} (h : orRaise s e k = .next t) :
    (∃ a, e = .ok a ∧ t = k a) ∨ (∃ r, e = .error r ∧ t = s.raise r) := by
  cases e with
  | ok a => cases h; exact .inl ⟨a, rfl, rfl⟩
  | error r => cases h; exact .inr ⟨r, rfl, rfl⟩

/-- The code of a cause is 1 to 7 (R113). -/
theorem FaultCause.code_range (c : FaultCause) : 1 ≤ c.code.toNat ∧ c.code.toNat ≤ 7 := by
  cases c <;> decide

/-- Two causes have two codes (R113). -/
theorem FaultCause.code_injective {c d : FaultCause} (h : c.code = d.code) : c = d := by
  cases c <;> cases d <;> first | rfl | simp [FaultCause.code] at h

/-- A fault leaves memory as it reads. -/
@[simp] theorem State.readByte_raise (s : State) (r : FaultRaise) (a : Nat) : (s.raise r).readByte a = s.readByte a := rfl

end Sys2Proof.Machine
end

