-- ==== Sys2Proof/Laws/Cycle.lean ====
section
/-! SUPPORT. Everything a step can do, said once (spec/30_encoding.md R56), and the pieces of a cycle. -/

namespace Sys2Proof.Machine

/-- Everything the fetch can do (R57). -/
theorem fetch_cases (s : State) :
    (s.pc.toNat ≤ 0xFFE ∧ fetch s = .ok (joinBytes (s.readByte s.pc.toNat) (s.readByte (s.pc.toNat + 1)))) ∨
    (s.pc.toNat ≥ 0xFFF ∧ fetch s = .error ⟨.fetchRange, rangeInfo s.pc.toNat⟩) := by
  unfold fetch
  split_ifs with h
  · exact .inr ⟨by omega, rfl⟩
  · exact .inl ⟨by omega, rfl⟩

/-- A cycle ends in a next state where its handler does, the opcode latch cleared. -/
@[simp] theorem endOf_next (t : State) : endOf (.next t) = .next t.endCycle := rfl

/-- The state a cycle ends in comes from its handler's. -/
theorem endOf_eq_next {r : Result} {t : State} (h : endOf r = .next t) : ∃ u, r = .next u ∧ t = u.endCycle := by
  cases r with
  | next u => cases h; exact ⟨u, rfl, rfl⟩
  | fault f => cases h
  | refused f => cases h

/-- A faulted core's cycle does nothing (R116). -/
theorem step_of_faulted {s : State} (h : s.faulted = true) : step s = .next s := by simp [step, runCycle, h]

/-- A cycle whose fetch fails takes FETCH_RANGE (R57). -/
theorem step_of_fetch_error {s : State} {r : FaultRaise} (h : s.faulted = false) (hf : fetch s = .error r) :
    step s = .next (s.takeFault r s.pc 0x0000).endCycle := by simp [step, runCycle, h, hf]

/-- A cycle whose fetch succeeds runs the handler of the fetched word (R56). -/
theorem step_of_fetch_ok {s : State} {op : Word} (h : s.faulted = false) (hf : fetch s = .ok op) :
    step s = endOf (execHandler (decode s.config.subDecode op) (s.beginCycle op)) := by
  simp [step, runCycle, h, hf]

/-- Everything a step that ends in a next state can have done. -/
theorem step_cases {s t : State} (h : step s = .next t) :
    (s.faulted = true ∧ t = s) ∨
    (s.faulted = false ∧ s.pc.toNat ≥ 0xFFF ∧ t = (s.takeFault ⟨.fetchRange, rangeInfo s.pc.toNat⟩ s.pc 0).endCycle) ∨
    (s.faulted = false ∧ s.pc.toNat ≤ 0xFFE ∧ ∃ op u,
      fetch s = .ok op ∧ op = joinBytes (s.readByte s.pc.toNat) (s.readByte (s.pc.toNat + 1)) ∧
      execHandler (decode s.config.subDecode op) (s.beginCycle op) = .next u ∧ t = u.endCycle) := by
  cases hf : s.faulted with
  | true =>
    rw [step_of_faulted hf] at h
    cases h
    exact .inl ⟨rfl, rfl⟩
  | false =>
    rcases fetch_cases s with ⟨hpc, hfetch⟩ | ⟨hpc, hfetch⟩
    · rw [step_of_fetch_ok hf hfetch] at h
      obtain ⟨u, hu, rfl⟩ := endOf_eq_next h
      exact .inr (.inr ⟨rfl, hpc, _, u, hfetch, rfl, hu, rfl⟩)
    · rw [step_of_fetch_error hf hfetch] at h
      cases h
      exact .inr (.inl ⟨rfl, hpc, rfl⟩)

/-- PC back to the instruction's address: the advance undone (R58, R115). -/
@[simp] theorem State.beginCycle_pc_sub (s : State) (op : Word) : (s.beginCycle op).pc - 2 = s.pc := by
  simp [State.beginCycle]

/-- The transaction `Cycle(rand)` ends in a next state where the step does. -/
theorem cycle_eq_next {rand : Byte} {s t : State} (h : cycle rand s = .next t) :
    ∃ u, step { s with randIn := some rand } = .next u ∧ t = u.dropRand := by
  unfold cycle at h
  cases hs : step { s with randIn := some rand } with
  | next u => rw [hs] at h; cases h; exact ⟨u, rfl, rfl⟩
  | fault f => rw [hs] at h; cases h
  | refused f => rw [hs] at h; cases h

end Sys2Proof.Machine
end

