-- ==== Sys2Proof/Laws/Display.lean ====
section
/-! SUPPORT. What drawing does to a pixel and when it counts a collision: the loops of spec/43_display.md R105 in closed form,
by row and by pixel. -/

namespace Sys2Proof.Machine

/-- A pixel after one is toggled (R105). -/
theorem FrameBuffer.pixel_toggle (fb : FrameBuffer) (px py qx qy : Nat) :
    (fb.toggle px py).pixel qx qy =
      if qx = px ∧ qy = py ∧ px < 64 ∧ py < 32 then !(fb.pixel px py) else fb.pixel qx qy := by
  unfold FrameBuffer.toggle FrameBuffer.pixel
  by_cases h : px < 64 ∧ py < 32
  · by_cases hq : qx < 64 ∧ qy < 32
    · simp only [h, hq, and_self, dite_true, Vector.getElem_set]
      by_cases hy : py = qy
      · subst hy
        by_cases hx : px = qx <;> simp [hx, eq_comm]
      · simp [hy, Ne.symm hy]
    · have : ¬(qx = px ∧ qy = py) := by rintro ⟨rfl, rfl⟩; exact hq h
      simp [h, hq]
      intro rfl rfl
      omega
  · simp only [h, dite_false]
    rw [if_neg (by rintro ⟨-, -, h'⟩; exact h')]

/-- No pixel is ON on a blank screen (R104). -/
@[simp] theorem FrameBuffer.pixel_blank (px py : Nat) : FrameBuffer.blank.pixel px py = false := by
  simp [FrameBuffer.pixel, FrameBuffer.blank]

/-- Two framebuffers with the same pixels are the same. -/
theorem FrameBuffer.ext_pixel {fb gb : FrameBuffer}
    (h : ∀ px py, px < 64 → py < 32 → fb.pixel px py = gb.pixel px py) : fb = gb := by
  apply Vector.ext; intro py hy
  apply Vector.ext; intro px hx
  simpa [FrameBuffer.pixel, hx, hy] using h px py hx hy

/-- Whether the row byte `b`, its first k columns drawn at column `px0`, has a set bit at screen column `qx`. -/
def columnsCover (b : Byte) (px0 k qx : Nat) : Bool :=
  decide (px0 ≤ qx ∧ qx < px0 + k ∧ qx < 64) && spriteBit b (qx - px0)

/-- Whether the sprite, its top row at `py`, has a set bit at the pixel (`qx`, `qy`) of the screen (R101, R102). -/
def spriteCovers (rows : List Byte) (px0 py qx qy : Nat) : Bool :=
  decide (py ≤ qy ∧ qy < py + rows.length ∧ qy < 32) && columnsCover (rows.getD (qy - py) 0) px0 8 qx

/-- Whether the set bit of column `c` lands on the screen, on a pixel that is ON, and counts (R103). -/
def bitCollides (mode : DrawCollision) (fb : FrameBuffer) (b : Byte) (px0 py c : Nat) : Prop :=
  spriteBit b c = true ∧ px0 + c < 64 ∧ py < 32 ∧ fb.pixel (px0 + c) py = true ∧ collisionCounts mode c = true

/-- A collision of a bit depends on its pixel alone. -/
theorem bitCollides_congr (mode : DrawCollision) {fb gb : FrameBuffer} (b : Byte) (px0 py c : Nat)
    (h : fb.pixel (px0 + c) py = gb.pixel (px0 + c) py) :
    bitCollides mode fb b px0 py c ↔ bitCollides mode gb b px0 py c := by
  simp only [bitCollides, h]

/-- One bit, seen at a pixel. -/
theorem drawBit_pixel (mode : DrawCollision) (b : Byte) (px0 py c : Nat) (d : FrameBuffer × Bool) (qx qy : Nat) :
    (drawBit mode b px0 py c d).1.pixel qx qy =
      xor (d.1.pixel qx qy) (decide (qx = px0 + c ∧ qy = py ∧ px0 + c < 64 ∧ py < 32) && spriteBit b c) := by
  unfold drawBit
  split_ifs with h
  · rw [FrameBuffer.pixel_toggle]
    by_cases hq : qx = px0 + c ∧ qy = py
    · obtain ⟨rfl, rfl⟩ := hq; simp [h]
    · rw [if_neg (by tauto), decide_eq_false (by tauto)]; simp
  · rcases hb : spriteBit b c
    · simp
    · rw [decide_eq_false (by tauto)]; simp

/-- One bit, seen at the collision. -/
theorem drawBit_collision (mode : DrawCollision) (b : Byte) (px0 py c : Nat) (d : FrameBuffer × Bool) :
    (drawBit mode b px0 py c d).2 = true ↔ d.2 = true ∨ bitCollides mode d.1 b px0 py c := by
  unfold drawBit bitCollides
  split_ifs with h
  · simp [h]
  · constructor
    · exact .inl
    · rintro (h' | h')
      · exact h'
      · exact absurd ⟨h'.1, h'.2.1, h'.2.2.1⟩ h

/-- The first k columns of a row, seen at a pixel. -/
theorem drawColumns_pixel (mode : DrawCollision) (b : Byte) (px0 py k : Nat) (d : FrameBuffer × Bool) (qx qy : Nat) :
    ((List.range k).foldl (fun acc c => drawBit mode b px0 py c acc) d).1.pixel qx qy =
      xor (d.1.pixel qx qy) (decide (qy = py ∧ py < 32) && columnsCover b px0 k qx) := by
  induction k with
  | zero =>
    simp only [List.range_zero, List.foldl_nil, columnsCover]
    rw [decide_eq_false (by omega : ¬(px0 ≤ qx ∧ qx < px0 + 0 ∧ qx < 64))]
    simp
  | succ k ih =>
    simp only [List.range_succ, List.foldl_append, List.foldl_cons, List.foldl_nil]
    rw [drawBit_pixel, ih, Bool.xor_assoc]
    congr 1
    by_cases hq : qx = px0 + k
    · subst hq
      by_cases hy : qy = py <;> simp [columnsCover, hy]
      by_cases h1 : py < 32 <;> by_cases h2 : px0 + k < 64 <;> simp [h1, h2]
    · have : (px0 ≤ qx ∧ qx < px0 + (k + 1) ∧ qx < 64) ↔ (px0 ≤ qx ∧ qx < px0 + k ∧ qx < 64) := by omega
      simp [columnsCover, hq, this]

/-- The first k columns of a row, seen at the collision. -/
theorem drawColumns_collision (mode : DrawCollision) (b : Byte) (px0 py k : Nat) (d : FrameBuffer × Bool) :
    ((List.range k).foldl (fun acc c => drawBit mode b px0 py c acc) d).2 = true ↔
      d.2 = true ∨ ∃ c < k, bitCollides mode d.1 b px0 py c := by
  induction k with
  | zero => simp
  | succ k ih =>
    simp only [List.range_succ, List.foldl_append, List.foldl_cons, List.foldl_nil]
    rw [drawBit_collision, ih, or_assoc]
    rw [bitCollides_congr (gb := d.1) mode b px0 py k (by rw [drawColumns_pixel]; simp [columnsCover])]
    refine or_congr_right ⟨?_, ?_⟩
    · rintro (⟨c, hc, h⟩ | h)
      · exact ⟨c, by omega, h⟩
      · exact ⟨k, by omega, h⟩
    · rintro ⟨c, hc, h⟩
      rcases Nat.lt_succ_iff_lt_or_eq.mp hc with hc | rfl
      · exact .inl ⟨c, hc, h⟩
      · exact .inr h

/-- The rows, seen at a pixel: it is toggled exactly where the sprite covers it (R105). -/
theorem drawRows_pixel (mode : DrawCollision) (px0 : Nat) (rows : List Byte) (py : Nat) (d : FrameBuffer × Bool)
    (qx qy : Nat) :
    (drawRows mode px0 py rows d).1.pixel qx qy = xor (d.1.pixel qx qy) (spriteCovers rows px0 py qx qy) := by
  induction rows generalizing py d with
  | nil =>
    have : ¬(py ≤ qy ∧ qy < py ∧ qy < 32) := by omega
    simp [drawRows, spriteCovers, this]
  | cons b bs ih =>
    rw [drawRows, ih, drawRow, drawColumns_pixel, Bool.xor_assoc]
    congr 1
    by_cases hy : qy = py
    · subst hy; simp [spriteCovers]
    · by_cases hlt : py ≤ qy
      · obtain ⟨j, rfl⟩ : ∃ j, qy = py + 1 + j := ⟨qy - (py + 1), by omega⟩
        have e1 : py + 1 + j - py = j + 1 := by omega
        have e2 : py + 1 + j - (py + 1) = j := by omega
        have e3 : (py ≤ py + 1 + j ∧ py + 1 + j < py + (bs.length + 1) ∧ py + 1 + j < 32) ↔
          (py + 1 ≤ py + 1 + j ∧ py + 1 + j < py + 1 + bs.length ∧ py + 1 + j < 32) := by omega
        simp only [spriteCovers, e1, e2, List.getD_cons_succ, List.length_cons, e3]
        rw [decide_eq_false (by omega : ¬(py + 1 + j = py ∧ py < 32))]
        simp
      · have h1 : ¬(py + 1 ≤ qy ∧ qy < py + 1 + bs.length ∧ qy < 32) := by omega
        have h2 : ¬(py ≤ qy ∧ qy < py + (bs.length + 1) ∧ qy < 32) := by omega
        simp only [spriteCovers, List.length_cons]
        rw [decide_eq_false h1, decide_eq_false h2, decide_eq_false (by omega : ¬(qy = py ∧ py < 32))]
        simp

/-- The rows, seen at the collision: some counted set bit lands on a pixel that was ON before the draw (R103). -/
theorem drawRows_collision (mode : DrawCollision) (px0 : Nat) (rows : List Byte) (py : Nat) (d : FrameBuffer × Bool) :
    (drawRows mode px0 py rows d).2 = true ↔
      d.2 = true ∨ ∃ r < rows.length, ∃ c < 8, bitCollides mode d.1 (rows.getD r 0) px0 (py + r) c := by
  induction rows generalizing py d with
  | nil => simp [drawRows]
  | cons b bs ih =>
    have keep (r c : Nat) (b' : Byte) :
        bitCollides mode (drawRow mode b px0 py d).1 b' px0 (py + 1 + r) c ↔
          bitCollides mode d.1 b' px0 (py + 1 + r) c :=
      bitCollides_congr mode b' px0 _ c (by
        rw [drawRow, drawColumns_pixel, decide_eq_false (by omega)]; simp)
    rw [drawRows, ih]
    simp only [keep]
    rw [drawRow, drawColumns_collision, or_assoc]
    refine or_congr_right ⟨?_, ?_⟩
    · rintro (⟨c, hc, h⟩ | ⟨r, hr, c, hc, h⟩)
      · exact ⟨0, by simp, c, hc, by simpa using h⟩
      · exact ⟨r + 1, by simpa using hr, c, hc, by
          rw [show py + (r + 1) = py + 1 + r by omega]; simpa using h⟩
    · rintro ⟨r, hr, c, hc, h⟩
      cases r with
      | zero => exact .inl ⟨c, hc, by simpa using h⟩
      | succ r =>
        exact .inr ⟨r, by simpa using hr, c, hc, by
          rw [show py + 1 + r = py + (r + 1) by omega]; simpa using h⟩

/-- The sprite, seen at a pixel (R105). -/
theorem drawSprite_pixel (mode : DrawCollision) (rows : List Byte) (px0 py0 : Nat) (fb : FrameBuffer) (qx qy : Nat) :
    (drawSprite mode rows px0 py0 fb).1.pixel qx qy = xor (fb.pixel qx qy) (spriteCovers rows px0 py0 qx qy) :=
  drawRows_pixel mode px0 rows py0 (fb, false) qx qy

/-- The sprite, seen at the collision (R103, R105). -/
theorem drawSprite_collision (mode : DrawCollision) (rows : List Byte) (px0 py0 : Nat) (fb : FrameBuffer) :
    (drawSprite mode rows px0 py0 fb).2 = true ↔
      ∃ r < rows.length, ∃ c < 8, bitCollides mode fb (rows.getD r 0) px0 (py0 + r) c := by
  rw [drawSprite, drawRows_collision]; simp

end Sys2Proof.Machine
end

