-- ==== Sys2Proof/Laws/PerInstr.lean ====
section
/-! SUPPORT. Facts about every instruction as syntax, one lemma per constructor. Family `TableRow`: the word the encoder gives
an instruction has the fixed bits of its row of spec/opcode_table.json. -/

namespace Sys2Proof.Laws.TableRow

/-- One entry of a row's "fixed": bits hi down to lo hold the value. -/
structure FixedField where
  hi : Nat
  lo : Nat
  value : Nat

/-- The "fixed" entries of the instruction's row. -/
def fixedFields : Instr → List FixedField
  | .cls => [⟨7, 0, 0xE0⟩, ⟨15, 12, 0x0⟩]
  | .ret => [⟨7, 0, 0xEE⟩, ⟨15, 12, 0x0⟩]
  | .sys _ => [⟨15, 12, 0x0⟩]
  | .jp _ => [⟨15, 12, 0x1⟩]
  | .call _ => [⟨15, 12, 0x2⟩]
  | .seImm _ _ => [⟨15, 12, 0x3⟩]
  | .sneImm _ _ => [⟨15, 12, 0x4⟩]
  | .seReg _ _ => [⟨15, 12, 0x5⟩]
  | .ldImm _ _ => [⟨15, 12, 0x6⟩]
  | .addImm _ _ => [⟨15, 12, 0x7⟩]
  | .ldReg _ _ => [⟨3, 0, 0x0⟩, ⟨15, 12, 0x8⟩]
  | .orReg _ _ => [⟨3, 0, 0x1⟩, ⟨15, 12, 0x8⟩]
  | .andReg _ _ => [⟨3, 0, 0x2⟩, ⟨15, 12, 0x8⟩]
  | .xorReg _ _ => [⟨3, 0, 0x3⟩, ⟨15, 12, 0x8⟩]
  | .addReg _ _ => [⟨3, 0, 0x4⟩, ⟨15, 12, 0x8⟩]
  | .subReg _ _ => [⟨3, 0, 0x5⟩, ⟨15, 12, 0x8⟩]
  | .shr _ _ => [⟨3, 0, 0x6⟩, ⟨15, 12, 0x8⟩]
  | .subn _ _ => [⟨3, 0, 0x7⟩, ⟨15, 12, 0x8⟩]
  | .shl _ _ => [⟨3, 0, 0xE⟩, ⟨15, 12, 0x8⟩]
  | .sneReg _ _ => [⟨15, 12, 0x9⟩]
  | .ldI _ => [⟨15, 12, 0xA⟩]
  | .jpV0 _ => [⟨15, 12, 0xB⟩]
  | .rnd _ _ => [⟨15, 12, 0xC⟩]
  | .drw _ _ _ => [⟨15, 12, 0xD⟩]
  | .skp _ => [⟨7, 0, 0x9E⟩, ⟨15, 12, 0xE⟩]
  | .sknp _ => [⟨7, 0, 0xA1⟩, ⟨15, 12, 0xE⟩]
  | .ldVxDt _ => [⟨7, 0, 0x7⟩, ⟨15, 12, 0xF⟩]
  | .ldVxKey _ => [⟨7, 0, 0xA⟩, ⟨15, 12, 0xF⟩]
  | .ldDtVx _ => [⟨7, 0, 0x15⟩, ⟨15, 12, 0xF⟩]
  | .ldStVx _ => [⟨7, 0, 0x18⟩, ⟨15, 12, 0xF⟩]
  | .addI _ => [⟨7, 0, 0x1E⟩, ⟨15, 12, 0xF⟩]
  | .ldF _ => [⟨7, 0, 0x29⟩, ⟨15, 12, 0xF⟩]
  | .ldB _ => [⟨7, 0, 0x33⟩, ⟨15, 12, 0xF⟩]
  | .storeRegs _ => [⟨7, 0, 0x55⟩, ⟨15, 12, 0xF⟩]
  | .loadRegs _ => [⟨7, 0, 0x65⟩, ⟨15, 12, 0xF⟩]

/-- The encoder's word has the fixed bits of the instruction's row. -/
def Statement (i : Instr) : Prop :=
  ∀ f ∈ fixedFields i, (encode i).toNat / 2 ^ f.lo % 2 ^ (f.hi + 1 - f.lo) = f.value

theorem cls : Statement .cls := by
  simp [Statement, fixedFields, encode, packNNN_toNat]

theorem ret : Statement .ret := by
  simp [Statement, fixedFields, encode, packNNN_toNat]

theorem sys (nnn : Addr12) : Statement (.sys nnn) := by
  have := nnn.isLt; simp [Statement, fixedFields, encode, packNNN_toNat]
  omega

theorem jp (nnn : Addr12) : Statement (.jp nnn) := by
  have := nnn.isLt; simp [Statement, fixedFields, encode, packNNN_toNat]
  omega

theorem call (nnn : Addr12) : Statement (.call nnn) := by
  have := nnn.isLt; simp [Statement, fixedFields, encode, packNNN_toNat]
  omega

theorem seImm (x : Reg) (kk : Byte) : Statement (.seImm x kk) := by
  have := kk.isLt; simp [Statement, fixedFields, encode, packXKK_toNat]
  omega

theorem sneImm (x : Reg) (kk : Byte) : Statement (.sneImm x kk) := by
  have := kk.isLt; simp [Statement, fixedFields, encode, packXKK_toNat]
  omega

theorem seReg (x y : Reg) : Statement (.seReg x y) := by
  simp [Statement, fixedFields, encode, packXYN_toNat]
  omega

theorem ldImm (x : Reg) (kk : Byte) : Statement (.ldImm x kk) := by
  have := kk.isLt; simp [Statement, fixedFields, encode, packXKK_toNat]
  omega

theorem addImm (x : Reg) (kk : Byte) : Statement (.addImm x kk) := by
  have := kk.isLt; simp [Statement, fixedFields, encode, packXKK_toNat]
  omega

theorem ldReg (x y : Reg) : Statement (.ldReg x y) := by
  simp [Statement, fixedFields, encode, packXYN_toNat]
  omega

theorem orReg (x y : Reg) : Statement (.orReg x y) := by
  simp [Statement, fixedFields, encode, packXYN_toNat]
  omega

theorem andReg (x y : Reg) : Statement (.andReg x y) := by
  simp [Statement, fixedFields, encode, packXYN_toNat]
  omega

theorem xorReg (x y : Reg) : Statement (.xorReg x y) := by
  simp [Statement, fixedFields, encode, packXYN_toNat]
  omega

theorem addReg (x y : Reg) : Statement (.addReg x y) := by
  simp [Statement, fixedFields, encode, packXYN_toNat]
  omega

theorem subReg (x y : Reg) : Statement (.subReg x y) := by
  simp [Statement, fixedFields, encode, packXYN_toNat]
  omega

theorem shr (x y : Reg) : Statement (.shr x y) := by
  simp [Statement, fixedFields, encode, packXYN_toNat]
  omega

theorem subn (x y : Reg) : Statement (.subn x y) := by
  simp [Statement, fixedFields, encode, packXYN_toNat]
  omega

theorem shl (x y : Reg) : Statement (.shl x y) := by
  simp [Statement, fixedFields, encode, packXYN_toNat]
  omega

theorem sneReg (x y : Reg) : Statement (.sneReg x y) := by
  simp [Statement, fixedFields, encode, packXYN_toNat]
  omega

theorem ldI (nnn : Addr12) : Statement (.ldI nnn) := by
  have := nnn.isLt; simp [Statement, fixedFields, encode, packNNN_toNat]
  omega

theorem jpV0 (nnn : Addr12) : Statement (.jpV0 nnn) := by
  have := nnn.isLt; simp [Statement, fixedFields, encode, packNNN_toNat]
  omega

theorem rnd (x : Reg) (kk : Byte) : Statement (.rnd x kk) := by
  have := kk.isLt; simp [Statement, fixedFields, encode, packXKK_toNat]
  omega

theorem drw (x y : Reg) (n : Height) : Statement (.drw x y n) := by
  simp [Statement, fixedFields, encode, packXYN_toNat]
  omega

theorem skp (x : Reg) : Statement (.skp x) := by
  simp [Statement, fixedFields, encode, packXKK_toNat]
  omega

theorem sknp (x : Reg) : Statement (.sknp x) := by
  simp [Statement, fixedFields, encode, packXKK_toNat]
  omega

theorem ldVxDt (x : Reg) : Statement (.ldVxDt x) := by
  simp [Statement, fixedFields, encode, packXKK_toNat]
  omega

theorem ldVxKey (x : Reg) : Statement (.ldVxKey x) := by
  simp [Statement, fixedFields, encode, packXKK_toNat]
  omega

theorem ldDtVx (x : Reg) : Statement (.ldDtVx x) := by
  simp [Statement, fixedFields, encode, packXKK_toNat]
  omega

theorem ldStVx (x : Reg) : Statement (.ldStVx x) := by
  simp [Statement, fixedFields, encode, packXKK_toNat]
  omega

theorem addI (x : Reg) : Statement (.addI x) := by
  simp [Statement, fixedFields, encode, packXKK_toNat]
  omega

theorem ldF (x : Reg) : Statement (.ldF x) := by
  simp [Statement, fixedFields, encode, packXKK_toNat]
  omega

theorem ldB (x : Reg) : Statement (.ldB x) := by
  simp [Statement, fixedFields, encode, packXKK_toNat]
  omega

theorem storeRegs (x : Reg) : Statement (.storeRegs x) := by
  simp [Statement, fixedFields, encode, packXKK_toNat]
  omega

theorem loadRegs (x : Reg) : Statement (.loadRegs x) := by
  simp [Statement, fixedFields, encode, packXKK_toNat]
  omega

end Sys2Proof.Laws.TableRow
end

