-- ==== Sys2Proof/Tests/Slice0.lean ====
section
/-! SUPPORT. Tests. Expected results come from spec/95_test_vectors.md (the vector's id stands in the docstring) or from the
encodings of spec/30_encoding.md. Then the witnesses: concrete states and operands that meet the hypotheses of each statement. -/

namespace Sys2Proof.Tests

open Sys2Proof.Machine

/-- The state after one step that answers a next state; the state itself otherwise. -/
def after (s : State) : State :=
  match step s with
  | .next t => t
  | .fault _ => s
  | .refused _ => s

/-- One step of the word `w`, placed where the state fetches. -/
def run (w : Nat) (s : State) : State := after (s.withFetchWord 16 w)

/-- `Cycle(rand)` of the word `w`. -/
def runRand (rand : Byte) (w : Nat) (s : State) : State :=
  match cycle rand (s.withFetchWord 16 w) with
  | .next t => t
  | .fault _ => s
  | .refused _ => s

/-- The state after a transaction, and its reply. -/
def host (tr : Transaction) (s : State) : Reply × State :=
  match transact tr s with
  | .next p => p
  | .fault _ => (.none, s)
  | .refused _ => (.none, s)

/-- The reset state with two registers set. -/
def regs (x : Reg) (a : Byte) (y : Reg) (b : Byte) : State := (State.reset.setV x a).setV y b

/-- Machines that differ from the default in one parameter. -/
def lowNibble : Config := { Config.default with subDecode := .lowNibble }
def valueNe : Config := { Config.default with sneCompare := .valueNe }
def referenceBit0 : Config := { Config.default with drawCollision := .referenceBit0 }
def resultLast : Config := { Config.default with vfAsDest := .resultLast }

/-- What the fault registers hold. -/
def status (s : State) : Bool × Nat × Nat × Nat × Nat :=
  (s.faulted, s.faultCause.toNat, s.faultPc.toNat, s.faultOpcode.toNat, s.faultInfo.toNat)

/-! ### Well-formedness: each check refuses an ill-formed term -/

theorem test_wf_refuses_sys_cls_low_byte : (Instr.sys 0x0E0).wellFormed .lowByte = false := by decide
theorem test_wf_refuses_sys_ret_low_byte : (Instr.sys 0xAEE).wellFormed .lowByte = false := by decide
theorem test_wf_refuses_sys_cls_low_nibble : (Instr.sys 0x120).wellFormed .lowNibble = false := by decide
theorem test_wf_refuses_sys_ret_low_nibble : (Instr.sys 0x12E).wellFormed .lowNibble = false := by decide
theorem test_wf_accepts_sys : (Instr.sys 0x123).wellFormed .lowByte = true ∧ (Instr.sys 0x120).wellFormed .lowByte = true ∧
    (Instr.sys 0x123).wellFormed .lowNibble = true := by decide

/-! ### Decoding: words written out bit by bit from the formats of R54 and the selectors of R59 to R62 -/

/-- Format Z: 0000 iiii ssss ssss. -/
theorem test_decode_group_0 :
    decodeTableWord 16 0b0000000011100000 = some .cls ∧ decodeTableWord 16 0b0000000011101110 = some .ret ∧
    decodeTableWord 16 0b0000000100100011 = some (.sys 0x123) := by decide

/-- Format NNN: oooo nnnn nnnn nnnn. -/
theorem test_decode_nnn :
    decodeTableWord 16 0b0001001000110100 = some (.jp 0x234) ∧ decodeTableWord 16 0b0010101010111100 = some (.call 0xABC) ∧
    decodeTableWord 16 0b1010001000101010 = some (.ldI 0x22A) ∧
    decodeTableWord 16 0b1011111100000001 = some (.jpV0 0xF01) := by decide

/-- Format XKK: oooo xxxx kkkk kkkk. -/
theorem test_decode_xkk :
    decodeTableWord 16 0b0011101001011100 = some (.seImm 0xA 0x5C) ∧
    decodeTableWord 16 0b0100010110100011 = some (.sneImm 0x5 0xA3) ∧
    decodeTableWord 16 0b0110101000101011 = some (.ldImm 0xA 0x2B) ∧
    decodeTableWord 16 0b0111000001100100 = some (.addImm 0x0 0x64) ∧
    decodeTableWord 16 0b1100111100001111 = some (.rnd 0xF 0x0F) := by decide

/-- Format XY: oooo xxxx yyyy iiii, any low nibble (R59). -/
theorem test_decode_xy :
    decodeTableWord 16 0b0101000100100000 = some (.seReg 0x1 0x2) ∧
    decodeTableWord 16 0b0101000100101111 = some (.seReg 0x1 0x2) ∧
    decodeTableWord 16 0b1001000100100000 = some (.sneReg 0x1 0x2) ∧
    decodeTableWord 16 0b1001000100101111 = some (.sneReg 0x1 0x2) := by decide

/-- Format XYS: 1000 xxxx yyyy ssss (R61). -/
theorem test_decode_xys :
    decodeTableWord 16 0b1000001000110000 = some (.ldReg 2 3) ∧ decodeTableWord 16 0b1000001000110001 = some (.orReg 2 3) ∧
    decodeTableWord 16 0b1000001000110010 = some (.andReg 2 3) ∧ decodeTableWord 16 0b1000001000110011 = some (.xorReg 2 3) ∧
    decodeTableWord 16 0b1000001000110100 = some (.addReg 2 3) ∧ decodeTableWord 16 0b1000001000110101 = some (.subReg 2 3) ∧
    decodeTableWord 16 0b1000001000110110 = some (.shr 2 3) ∧ decodeTableWord 16 0b1000001000110111 = some (.subn 2 3) ∧
    decodeTableWord 16 0b1000001000111110 = some (.shl 2 3) ∧ decodeTableWord 16 0b1000001000111000 = none := by decide

/-- Format XYN: 1101 xxxx yyyy nnnn. -/
theorem test_decode_xyn : decodeTableWord 16 0b1101000100100101 = some (.drw 1 2 5) := by decide

/-- Format XSS, group E (R60). -/
theorem test_decode_group_e :
    decodeTableWord 16 0b1110010110011110 = some (.skp 5) ∧ decodeTableWord 16 0b1110010110100001 = some (.sknp 5) ∧
    decodeTableWord 16 0b1110000010011111 = none := by decide

/-- Format XSS, group F (R62). -/
theorem test_decode_group_f :
    decodeTableWord 16 0b1111001100000111 = some (.ldVxDt 3) ∧ decodeTableWord 16 0b1111001100001010 = some (.ldVxKey 3) ∧
    decodeTableWord 16 0b1111001100010101 = some (.ldDtVx 3) ∧ decodeTableWord 16 0b1111001100011000 = some (.ldStVx 3) ∧
    decodeTableWord 16 0b1111001100011110 = some (.addI 3) ∧ decodeTableWord 16 0b1111001100101001 = some (.ldF 3) ∧
    decodeTableWord 16 0b1111001100110011 = some (.ldB 3) ∧ decodeTableWord 16 0b1111001101010101 = some (.storeRegs 3) ∧
    decodeTableWord 16 0b1111001101100101 = some (.loadRegs 3) ∧ decodeTableWord 16 0b1111000011111111 = none := by decide

/-- The two readings of `SUBDECODE_0E` on the words R60 names. -/
theorem test_decode_low_nibble :
    decode .lowNibble 0x0120 = .instr .cls ∧ decode .lowByte 0x0120 = .instr (.sys 0x120) ∧
    decode .lowNibble 0xE10E = .instr (.skp 1) ∧ decode .lowByte 0xE10E = .unmatched := by decide

/-- A rejection by name, and the bytes after an opcode handed back. -/
theorem test_decode_bytes :
    decodeBytes .lowByte [0x12] = .error .truncated ∧
    decodeBytes .lowByte [0x12, 0x34, 0x56] = .ok (.instr (.jp 0x234), [0x56]) := by decide

/-! ### One step per instruction -/

/-- D1. -/
theorem test_cls : let t := run 0x00E0 (State.reset.setFb ((FrameBuffer.blank.toggle 0 0).toggle 63 31))
    t.fb.pixel 0 0 = false ∧ t.fb.pixel 63 31 = false ∧ t.v[15] = 0 ∧ t.pc = 0x202 := by decide
/-- CF1. -/
theorem test_ret : let t := run 0x00EE (after (State.reset.withFetchWord 16 0x2210))
    t.sp.val = 0 ∧ t.pc = 0x202 ∧ t.stack[0] = 0x0202 := by decide
/-- CF2. -/
theorem test_ret_underflow : let t := run 0x00EE State.reset
    status t = (true, 3, 0x200, 0x00EE, 0x0000) ∧ t.pc = 0x200 ∧ t.sp.val = 0 := by decide
/-- E1. -/
theorem test_sys : (run 0x0123 State.reset).pc = 0x202 := by decide
/-- W3. -/
theorem test_jp : (run 0x1234 State.reset).pc = 0x234 := by decide
/-- CF4. -/
theorem test_call : let t := run 0x2210 (State.reset.setPc 0x204)
    t.stack[0] = 0x0206 ∧ t.sp.val = 1 ∧ t.pc = 0x210 := by decide
/-- CF6. -/
theorem test_call_overflow : let t := run 0x2ABC { State.reset with sp := 16 }
    status t = (true, 2, 0x200, 0x2ABC, 0x0ABC) ∧ t.sp.val = 16 ∧ t.pc = 0x200 := by decide
/-- W4. -/
theorem test_se_imm : (run 0x3310 (regs 3 0x10 0 0)).pc = 0x204 ∧ (run 0x3310 (regs 3 0x11 0 0)).pc = 0x202 := by decide
/-- CF7. -/
theorem test_se_imm_top : let t := run 0x3310 ((regs 3 0x10 0 0).setPc 0xFFE)
    t.pc = 0x1002 ∧ status (after t) = (true, 1, 0x1002, 0x0000, 0x1002) := by decide
/-- CF8, CF9. -/
theorem test_sne_imm : (run 0x4311 (regs 3 0x10 0 0)).pc = 0x204 ∧ (run 0x4310 (regs 3 0x10 0 0)).pc = 0x202 := by decide
/-- CF11, CF12. -/
theorem test_se_reg : (run 0x5121 (regs 1 7 2 7)).pc = 0x204 ∧ (run 0x5120 (regs 1 7 2 8)).pc = 0x202 := by decide
/-- A1. -/
theorem test_ld_imm : let t := run 0x6A2B State.reset; t.v[0xA] = 0x2B ∧ t.pc = 0x202 := by decide
/-- A3, A4. -/
theorem test_add_imm : let t := run 0x7001 (regs 0 0xFF 15 0x55)
    t.v[0] = 0x00 ∧ t.v[15] = 0x55 ∧ (run 0x7F01 (regs 15 0x10 0 0)).v[15] = 0x11 := by decide
/-- A5. -/
theorem test_ld_reg : (run 0x8010 (regs 0 0x00 1 0x55)).v[0] = 0x55 := by decide
/-- A6. -/
theorem test_or : let t := run 0x8011 ((regs 0 0xF0 1 0x0F).setV 15 1); t.v[0] = 0xFF ∧ t.v[15] = 0x01 := by decide
/-- A7. -/
theorem test_and : (run 0x8012 (regs 0 0xF0 1 0x3C)).v[0] = 0x30 := by decide
/-- A8, A9. -/
theorem test_xor : (run 0x8013 (regs 0 0xF0 1 0x3C)).v[0] = 0xCC ∧ (run 0x8003 (regs 0 0xAB 1 0)).v[0] = 0x00 := by decide
/-- A10, A13. -/
theorem test_add : let t := run 0x8014 (regs 0 0xFF 1 0x01); let u := run 0x8224 (regs 2 0x90 1 0)
    t.v[0] = 0x00 ∧ t.v[15] = 0x01 ∧ u.v[2] = 0x20 ∧ u.v[15] = 0x01 := by decide
/-- A14, A15. -/
theorem test_add_vf : let s := regs 15 0xFF 1 0x64; let t := run 0x80F4 (regs 0 1 15 1)
    (run 0x8F14 s).v[15] = 0x01 ∧ (run 0x8F14 { s with config := resultLast }).v[15] = 0x63 ∧
    t.v[0] = 0x02 ∧ t.v[15] = 0x00 := by decide
/-- A16, A17. -/
theorem test_sub : let t := run 0x8235 (regs 2 5 3 7); let u := run 0x8235 (regs 2 7 3 7)
    t.v[2] = 0xFE ∧ t.v[15] = 0x00 ∧ u.v[2] = 0x00 ∧ u.v[15] = 0x01 := by decide
/-- A19. -/
theorem test_sub_vf : (run 0x8FF5 (regs 15 5 0 0)).v[15] = 0x01 ∧
    (run 0x8FF5 { regs 15 5 0 0 with config := resultLast }).v[15] = 0x00 := by decide
/-- A20, A22. -/
theorem test_shr : let t := run 0x8406 (regs 4 0x81 0 0); let u := run 0x8456 (regs 4 0x02 5 0xFF)
    t.v[4] = 0x40 ∧ t.v[15] = 0x01 ∧ u.v[4] = 0x01 ∧ u.v[15] = 0x00 ∧ u.v[5] = 0xFF := by decide
/-- A23. -/
theorem test_shr_vf : (run 0x8F06 (regs 15 0x81 0 0)).v[15] = 0x01 ∧
    (run 0x8F06 { regs 15 0x81 0 0 with config := resultLast }).v[15] = 0x40 := by decide
/-- A24, A25. -/
theorem test_subn : let t := run 0x8237 (regs 2 5 3 7); let u := run 0x8237 (regs 2 7 3 5)
    t.v[2] = 0x02 ∧ t.v[15] = 0x01 ∧ u.v[2] = 0xFE ∧ u.v[15] = 0x00 := by decide
/-- A26. -/
theorem test_subn_vf : (run 0x8F07 (regs 15 5 0 7)).v[15] = 0x01 ∧
    (run 0x8F07 { regs 15 5 0 7 with config := resultLast }).v[15] = 0x02 := by decide
/-- A27, A29. -/
theorem test_shl : let t := run 0x840E (regs 4 0x81 0 0); let u := run 0x840E (regs 4 0x7F 0 0)
    t.v[4] = 0x02 ∧ t.v[15] = 0x01 ∧ u.v[4] = 0xFE ∧ u.v[15] = 0x00 := by decide
/-- A30. -/
theorem test_shl_vf : (run 0x8F0E (regs 15 0x81 0 0)).v[15] = 0x01 ∧
    (run 0x8F0E { regs 15 0x81 0 0 with config := resultLast }).v[15] = 0x02 := by decide
/-- CF13. -/
theorem test_sne_reg : (run 0x9120 (regs 1 7 2 7)).pc = 0x204 ∧
    (run 0x9120 { regs 1 7 2 7 with config := valueNe }).pc = 0x202 := by decide
/-- CF15, CF16. -/
theorem test_sne_reg_same : (run 0x9110 (regs 1 7 0 0)).pc = 0x202 ∧ (run 0x912F (regs 1 7 2 7)).pc = 0x204 := by decide
/-- X1. -/
theorem test_ld_i : (run 0xAFFF State.reset).index = 0x0FFF := by decide
/-- CF17, CF18. -/
theorem test_jp_v0 : let t := run 0xBF01 (regs 0 0xFF 1 0)
    (run 0xB300 (regs 0 0x10 3 0x99)).pc = 0x310 ∧ t.pc = 0x1000 ∧
    status (after t) = (true, 1, 0x1000, 0x0000, 0x1000) := by decide
/-- A31, A33. -/
theorem test_rnd : (runRand 0xA7 0xC00F State.reset).v[0] = 0x07 ∧ (runRand 0x5A 0xC0FF State.reset).v[0] = 0x5A := by decide
/-- D11, a pixel turned off, one turned on, one not reached by wrapping; D7 under `reference_bit0`; D10, the old VF is the
column. -/
theorem test_drw :
    let s := (((regs 0 62 1 0).setIndex 0x300).storeBytes 0x300 [0xFF]).setFb ((FrameBuffer.blank.toggle 62 0).toggle 0 0)
    let t := run 0xD011 s
    let u := run 0xDF11 (((regs 15 3 1 0).setIndex 0x300).storeBytes 0x300 [0x80])
    t.fb.pixel 62 0 = false ∧ t.fb.pixel 63 0 = true ∧ t.fb.pixel 0 0 = true ∧ t.v[15] = 1 ∧
    (run 0xD011 { s with config := referenceBit0 }).v[15] = 0 ∧ u.fb.pixel 3 0 = true ∧ u.v[15] = 0 := by decide
/-- D9. -/
theorem test_drw_fault : let t := run 0xD013 ((State.reset.setIndex 0xFFE).setFb (FrameBuffer.blank.toggle 0 0))
    status t = (true, 4, 0x200, 0xD013, 0x1000) ∧ t.fb.pixel 0 0 = true ∧ t.v[15] = 0 := by decide
/-- K1, K2. -/
theorem test_skp : (run 0xE59E (keyWrite 7 true (regs 5 7 0 0))).pc = 0x204 ∧ (run 0xE59E (regs 5 7 0 0)).pc = 0x202 := by decide
/-- K5. -/
theorem test_skp_fault : status (run 0xE59E (regs 5 0x10 0 0)) = (true, 6, 0x200, 0xE59E, 0x0010) := by decide
/-- K3, K4. -/
theorem test_sknp : (run 0xE5A1 (regs 5 7 0 0)).pc = 0x204 ∧ (run 0xE5A1 (keyWrite 7 true (regs 5 7 0 0))).pc = 0x202 := by decide
/-- K6. -/
theorem test_sknp_fault : status (run 0xE5A1 (regs 5 0xFF 0 0)) = (true, 6, 0x200, 0xE5A1, 0x00FF) := by decide
/-- K7. -/
theorem test_ld_vx_dt : let t := run 0xF307 (State.reset.setDt 0x3C); t.v[3] = 0x3C ∧ t.dt = 0x3C := by decide
/-- K8. -/
theorem test_ld_key_waits : let t := run 0xF30A (regs 3 0x44 0 0); t.pc = 0x200 ∧ t.v[3] = 0x44 := by decide
/-- K9. -/
theorem test_ld_key : let t := run 0xF00A (keyWrite 9 true (keyWrite 3 true State.reset)); t.v[0] = 3 ∧ t.pc = 0x202 := by decide
/-- K11. -/
theorem test_ld_dt : (run 0xF215 (regs 2 0x3C 0 0)).dt = 0x3C := by decide
/-- K12. -/
theorem test_ld_st : (run 0xF218 (regs 2 0x05 0 0)).st = 0x05 := by decide
/-- X2, X3. -/
theorem test_add_i : let t := run 0xF11E ((regs 1 0x20 0 0).setIndex 0x0FF0)
    t.index = 0x1010 ∧ t.v[15] = 0 ∧ (run 0xF11E ((regs 1 0x0F 0 0).setIndex 0xFFF0)).index = 0xFFFF := by decide
/-- X4. -/
theorem test_add_i_fault : let t := run 0xF11E ((regs 1 0x10 0 0).setIndex 0xFFF0)
    status t = (true, 7, 0x200, 0xF11E, 0x0010) ∧ t.index = 0xFFF0 := by decide
/-- X5, X7. -/
theorem test_ld_f : (run 0xFA29 (regs 0xA 0x0A 0 0)).index = 0x0082 ∧ (run 0xF029 (regs 0 0xFF 1 0)).index = 0x054B := by decide
/-- W8. -/
theorem test_ld_b : let t := run 0xF033 ((regs 0 0xEA 1 0).setIndex 0x300)
    t.readByte 0x300 = 2 ∧ t.readByte 0x301 = 3 ∧ t.readByte 0x302 = 4 ∧ t.index = 0x300 := by decide
/-- X11. -/
theorem test_ld_b_fault : let t := run 0xF033 ((regs 0 7 1 0).setIndex 0xFFE)
    status t = (true, 5, 0x200, 0xF033, 0x1000) ∧ t.readByte 0xFFE = 0 := by decide
/-- X12. -/
theorem test_store_regs : let t := run 0xF255 (((regs 0 1 1 2).setV 2 3).setIndex 0x300)
    t.readByte 0x300 = 1 ∧ t.readByte 0x301 = 2 ∧ t.readByte 0x302 = 3 ∧ t.index = 0x300 := by decide
/-- X15, X19. -/
theorem test_store_regs_fault : status (run 0xF055 (State.reset.setIndex 0x1234)) = (true, 5, 0x200, 0xF055, 0x1234) ∧
    (run 0xF055 ((regs 0 0x99 1 0).setIndex 0x060)).readByte 0x060 = 0x99 := by decide
/-- X16. -/
theorem test_load_regs : let t := run 0xF065 (((regs 1 0x77 0 0).setIndex 0x300).storeBytes 0x300 [0xAB, 0xCD])
    t.v[0] = 0xAB ∧ t.v[1] = 0x77 ∧ t.index = 0x300 := by decide
/-- X18. -/
theorem test_load_regs_fault : let t := run 0xF165 ((regs 0 0x55 1 0).setIndex 0xFFF)
    status t = (true, 4, 0x200, 0xF165, 0x1000) ∧ t.v[0] = 0x55 := by decide

/-! ### The cycle -/

/-- E2, E3. -/
theorem test_unmatched : let t := run 0x8008 (regs 0 3 1 0)
    t.pc = 0x202 ∧ t.v[0] = 3 ∧ (run 0xF0FF State.reset).pc = 0x202 := by decide
/-- E7, E8. -/
theorem test_fetch_at_the_top : let t := after (State.reset.setPc 0xFFE)
    t.pc = 0x1000 ∧ status (after t) = (true, 1, 0x1000, 0x0000, 0x1000) ∧ (after t).pc = 0x1000 := by decide
/-- E9. -/
theorem test_fetch_range : let t := after (State.reset.setPc 0xFFF)
    status t = (true, 1, 0x0FFF, 0x0000, 0x1000) ∧ t.pc = 0xFFF := by decide
/-- E10: an odd PC. -/
theorem test_odd_fetch : (after ((State.reset.storeBytes 0x201 [0x12, 0x00]).setPc 0x201)).pc = 0x200 := by decide
/-- E5. -/
theorem test_low_nibble_cls : let s := State.reset.setFb (FrameBuffer.blank.toggle 0 0)
    (run 0x0120 s).fb.pixel 0 0 = true ∧ (run 0x0120 { s with config := lowNibble }).fb.pixel 0 0 = false := by decide
/-- `withFetchWord` on a faulted core and on a core whose PC cannot be fetched from: the next step runs the word. -/
theorem test_with_fetch_word : (run 0x1234 { State.reset with faulted := true, faultCause := 2 }).pc = 0x234 ∧
    (run 0x1234 (State.reset.setPc 0xFFF)).pc = 0x234 := by decide

/-- The host's interface is this machine. -/
theorem test_core : core.step = step ∧ core.reset = State.reset := ⟨rfl, rfl⟩

/-! ### The host's transactions and reset -/

/-- W1. -/
theorem test_reset_memory : State.reset.readByte 0x050 = 0xF0 ∧ State.reset.readByte 0x09F = 0x80 ∧
    State.reset.readByte 0x04F = 0 ∧ State.reset.readByte 0x0A0 = 0 ∧ State.reset.pc = 0x200 := by decide
/-- W2. -/
theorem test_load_rom : let r := host (.loadRom [0xA2, 0x2A]) State.reset
    r.1 = .accepted ∧ r.2.readByte 0x200 = 0xA2 ∧ r.2.readByte 0x202 = 0 ∧ (after r.2).index = 0x022A := by decide
/-- H2. -/
theorem test_load_rom_refused : transact (.loadRom (List.replicate 3585 0xAA)) State.reset = .next (.refused, State.reset) := by
  show Host.Outcome.next (loadRom _ _) = _
  rw [loadRom, if_pos (by rw [List.length_replicate]; omega)]
/-- H4. -/
theorem test_reset_clears_fault : (host .reset (run 0x00EE State.reset)).2 = State.reset := by decide +kernel
/-- K13, K14, K16. -/
theorem test_tick : let s : State := { State.reset with st := 2, dt := 1, faulted := true }
    (tick s).dt = 0 ∧ (tick s).st = 1 ∧ (tick (tick s)).dt = 0 ∧ (tick s).faulted = true := by decide
/-- K17. -/
theorem test_key_write : let t := (host (.keyWrite 0xA true) State.reset).2
    t.keys[0xA] = true ∧ t.keys[0x9] = false := by decide
/-- H5. -/
theorem test_fb_read : let ws := fbRead (State.reset.setFb (FrameBuffer.blank.toggle 3 1))
    ws.length = 2048 ∧ ws[67]? = some 0xFFFFFFFF ∧ ws[66]? = some 0 ∧ ws[68]? = some 0 := by decide +kernel
/-- H6. -/
theorem test_status_read : (host .statusRead (run 0x2ABC { State.reset with sp := 16 })).1 =
    .status ⟨true, 2, 0x0200, 0x2ABC, 0x0ABC⟩ := by decide
/-- E11. -/
theorem test_faulted_cycle : let s : State := { State.reset with faulted := true, faultCause := 2 }
    step s = .next s := by rfl

/-! ### Witnesses: states and operands that meet the hypotheses of each statement that has some, clause by clause -/

/-- The reset state with the word `w` at `pc`. -/
def placed (pc : Word) (w : Nat) : State := (State.reset.setPc pc).withFetchWord 16 w

theorem witness_DecodeOfEncode : (Instr.sys 0xFFF).wellFormed .lowByte = true ∧ (Instr.sys 0x0FF).wellFormed .lowNibble = true ∧
    (Instr.loadRegs 0xF).wellFormed .lowByte = true := by decide
theorem witness_DecodedInstruction :
    decode .lowByte 0x1FFF = .instr (.jp 0xFFF) ∧ 0x1FFF / 4096 ∉ [0x0, 0x5, 0x9, 0xE] ∧
    decode .lowByte 0xFF65 = .instr (.loadRegs 0xF) ∧ 0xFF65 / 4096 ∉ [0x0, 0x5, 0x9, 0xE] ∧
    decode .lowNibble 0x5FFF = .instr (.seReg 0xF 0xF) ∧ 0x5FFF / 4096 ∈ [0x5, 0x9] ∧
    decode .lowNibble 0x9120 = .instr (.sneReg 1 2) ∧ 0x9120 / 4096 ∈ [0x5, 0x9] := by decide
theorem witness_GroupsZeroAndE : (0x0FFF#16).toNat / 4096 = 0x0 ∧ (0xE000#16).toNat / 4096 = 0xE := by decide
theorem witness_UnmatchedWords : let s := placed 0xFFE 0x8FFF
    s.NoFault ∧ s.pc.toNat ≤ 0xFFE ∧ decode s.config.subDecode (BitVec.ofNat 16 s.wordAtPc) = .unmatched := by decide
theorem witness_StepRuns : let s := placed 0xFFE 0x1234
    s.NoFault ∧ s.pc.toNat ≤ 0xFFE ∧ decode s.config.subDecode (BitVec.ofNat 16 s.wordAtPc) = .instr (.jp 0x234) := by decide
theorem witness_Fetch : (placed 0xFFE 0x1234).pc.toNat ≤ 0xFFE ∧
    (State.reset.setPc 0xFFF).pc.toNat ≥ 0xFFF ∧ (State.reset.setPc 0xFFF).NoFault := by decide
theorem witness_FaultedCore : let s : State := { State.reset with faulted := true, faultCause := 2 }
    s.faulted = true ∧
    transact (.keyWrite 15 true) { s with faulted := false } = .next (.none, keyWrite 15 true { s with faulted := false }) ∧
    transact (.loadRom [1]) { s with faulted := false } = .next (loadRom [1] { s with faulted := false }) ∧
    transact .fbRead { s with faulted := false } = .next (.frame (fbRead s), { s with faulted := false }) ∧
    transact .reset s = .next (.none, resetCore s) := ⟨rfl, rfl, rfl, rfl, rfl⟩
theorem witness_Sys : (Instr.sys 0x0E1).wellFormed .lowByte = true ∧ (Instr.sys 0x0EF).wellFormed .lowNibble = true := by decide
theorem witness_Ret : State.reset.sp.val = 0 ∧ ({ State.reset with sp := 1 } : State).sp.val = (0 : Fin 16).val + 1 ∧
    ({ State.reset with sp := 16 } : State).sp.val = (15 : Fin 16).val + 1 := by decide
theorem witness_Call : ({ State.reset with sp := 16 } : State).sp.val = 16 ∧ State.reset.sp.val = (0 : Fin 16).val ∧
    ({ State.reset with sp := 15 } : State).sp.val = (15 : Fin 16).val := by decide
theorem witness_ReturnUndoesCall : State.reset.sp.val < 16 ∧ ({ State.reset with sp := 15 } : State).sp.val < 16 := by decide
theorem witness_RegisterSkips : State.reset.config.sneCompare = .indexNe ∧
    (State.resetWith valueNe).config.sneCompare = .valueNe := by decide
/-- Vx is not VF, and Vx is VF, under both values of `VF_AS_DEST`. -/
theorem witness_ResultAndFlag : (0 : Reg) ≠ vf ∧ (15 : Reg) = vf ∧ State.reset.config.vfAsDest = .flagLast ∧
    (State.resetWith resultLast).config.vfAsDest ≠ .flagLast := by decide
theorem witness_FlagsZeroOrOne : let s := State.reset; let u := State.resetWith resultLast
    (Instr.addReg 15 1 ∈ [Instr.addReg 15 1, .subReg 15 1, .subn 15 1, .shr 15 1, .shl 15 1, .drw 15 1 0]) ∧
    raises (.addReg 15 1) s = none ∧ s.config.vfAsDest = .flagLast ∧
    exec (.addReg 15 1) s = .next (s.writeRF 15 (addFlag 0 0)) ∧
    raises (.shl 0 1) u = none ∧ (0 : Reg) ≠ vf ∧ exec (.shl 0 1) u = .next (u.writeRF 0 (shlFlag 0)) ∧
    raises (.drw 15 1 0) u = none ∧ exec (.drw 15 1 0) u = .next ((u.setFb u.fb).setV vf 0) :=
  ⟨by decide, rfl, rfl, rfl, rfl, by decide, rfl, rfl, rfl⟩
theorem witness_Rnd : (placed 0xFFE 0xCFFF).NoFault ∧ (placed 0xFFE 0xCFFF).pc.toNat ≤ 0xFFE ∧
    (placed 0xFFE 0xCFFF).wordAtPc = (wordXKK 0xC 15 (0xFF : Byte).toNat).toNat := by decide
theorem witness_RndConsumes : ({ State.reset with randIn := some 0xA7 } : State).randIn = some 0xA7 ∧
    State.reset.randIn = none := by decide
theorem witness_AddToIndex : let s := (regs 1 0x0F 2 0x10).setIndex 0xFFF0
    s.index.toNat + (s.v[(1 : Reg)]).toNat = 0xFFFF ∧ s.index.toNat + (s.v[(2 : Reg)]).toNat = 0x10000 := by decide
theorem witness_DecimalDigits : Memory.WF State.reset.config.font State.reset.mem ∧
    (State.reset.setIndex 0xFFD).indexAddr 0 + 2 ≤ 0xFFF ∧ (State.reset.setIndex 0xFFE).indexAddr 0 + 2 > 0xFFF := by decide
/-- Also the two clauses on the bytes outside: below the first stored byte and above the last. -/
theorem witness_RegistersStored : Memory.WF State.reset.config.font State.reset.mem ∧
    (State.reset.setIndex 0xFF0).indexAddr 0 + (15 : Reg).val ≤ 0xFFF ∧
    (State.reset.setIndex 0xFF1).indexAddr 0 + (15 : Reg).val > 0xFFF ∧
    0x2FF < (State.reset.setIndex 0x300).indexAddr 0 ∧
    (State.reset.setIndex 0x300).indexAddr 0 + (2 : Reg).val + 1 ≤ 0x303 := by decide
theorem witness_RegistersLoaded : (State.reset.setIndex 0xFFF).indexAddr 0 + (0 : Reg).val ≤ 0xFFF ∧
    (State.reset.setIndex 0xFFF).indexAddr 0 + (1 : Reg).val > 0xFFF := by decide
theorem witness_StoredBytesFetched : let s := State.reset.setIndex 0xFFE
    Memory.WF s.config.font s.mem ∧ 1 ≤ (1 : Reg).val ∧ s.index.toNat + (1 : Reg).val ≤ 0xFFF := by decide
theorem witness_Drw : (0 : Height).val = 0 ∧ (State.reset.setIndex 0xFFF).index.toNat + (1 : Height).val - 1 ≤ 0xFFF ∧
    (2 : Height).val > 0 ∧ (State.reset.setIndex 0xFFF).index.toNat + (2 : Height).val - 1 > 0xFFF := by decide
/-- A set bit that lands on the last column of the last row, and one that counts under both modes. -/
theorem witness_SpriteBit : let s := ((regs 0 63 1 31).setIndex 0x300).storeBytes 0x300 [0x81]
    s.SpriteBitAt 0 1 0 0 63 31 ∧ s.SpriteBitAt 2 2 0 7 7 0 ∧ s.Counts 7 ∧ State.Counts (State.resetWith referenceBit0) 7 := by
  refine ⟨?_, ?_, .inr rfl, .inr rfl⟩ <;> (unfold State.SpriteBitAt; decide)
theorem witness_DrawingTwice : (1 : Reg) ≠ vf ∧ (2 : Reg) ≠ vf ∧
    ((State.reset.setIndex 0xFFF).index.toNat + (1 : Height).val - 1 ≤ 0xFFF) := by decide
theorem witness_KeySkips : ((regs 5 15 6 16).v[(5 : Reg)]).toNat = (15 : Key).val ∧
    ((regs 5 15 6 16).v[(6 : Reg)]).toNat > 0xF := by decide
theorem witness_WaitForKey : let s := keyWrite 15 true (keyWrite 3 true State.reset)
    s.keys[(3 : Key)] = true ∧ (∀ j : Key, j < 3 → s.keys[j] = false) ∧
    (keyWrite 15 true State.reset).keys[(15 : Key)] = true ∧ (∀ j : Key, j < 15 → (keyWrite 15 true State.reset).keys[j] = false) ∧
    (∀ k : Key, State.reset.keys[k] = false) := by decide
theorem witness_WaitForKey_cycle : let s := placed 0xFFE 0xFF0A
    (∀ k : Key, s.keys[k] = false) ∧ s.NoFault ∧ s.pc.toNat ≤ 0xFFE ∧ s.wordAtPc = (wordXKK 0xF 15 0x0A).toNat := by decide
/-- A fetch that fails, and an unmatched word at the last address that can be fetched. -/
theorem witness_Faults_fetch : (State.reset.setPc 0xFFF).NoFault ∧ (State.reset.setPc 0xFFF).pc.toNat + 1 > 0xFFF ∧
    (placed 0xFFE 0xE000).NoFault ∧ (placed 0xFFE 0xE000).pc.toNat + 1 ≤ 0xFFF ∧
    decode (placed 0xFFE 0xE000).config.subDecode (BitVec.ofNat 16 (placed 0xFFE 0xE000).wordAtPc) = .unmatched := by decide
/-- One state for each cause a handler raises, and one where none is. -/
theorem witness_Faults : State.reset.NoFault ∧
    raises (.call 0xABC) { State.reset with sp := 16 } = some (2, 0xABC) ∧ raises .ret State.reset = some (3, 0) ∧
    raises (.drw 0 0 2) (State.reset.setIndex 0xFFF) = some (4, 0x1000) ∧
    raises (.loadRegs 0) (State.reset.setIndex 0x1234) = some (4, 0x1234) ∧
    raises (.ldB 0) (State.reset.setIndex 0xFFE) = some (5, 0x1000) ∧
    raises (.storeRegs 15) (State.reset.setIndex 0xFF1) = some (5, 0x1000) ∧
    raises (.skp 5) (regs 5 16 0 0) = some (6, 16) ∧ raises (.sknp 5) (regs 5 255 0 0) = some (6, 255) ∧
    raises (.addI 1) ((regs 1 0x10 0 0).setIndex 0xFFF0) = some (7, 0x10) ∧
    raises (.drw 0 0 0) (State.reset.setIndex 0xFFFF) = none ∧ raises (.storeRegs 15) (State.reset.setIndex 0xFF0) = none := by
  decide
theorem witness_FaultsPrecise : let s := placed 0x200 0x00EE
    s.NoFault ∧ step s = .next (after s) ∧ (after s).faulted = true := ⟨by decide, rfl, by decide⟩
theorem witness_FaultsPrecise_fetch : let s := State.reset.setPc 0xFFF
    s.NoFault ∧ step s = .next (after s) ∧ (after s).faulted = true := ⟨by decide, rfl, by decide⟩
theorem witness_RegistersWrittenAndRead : exec (.addReg 0 1) State.reset = .next (State.reset.writeRF 0 (addFlag 0 0)) ∧
    writesReg (.addReg 0 1) 2 = false ∧ readsReg State.reset.config (.addReg 0 1) 2 = false ∧
    writesReg (.sneReg 0 1) 1 = false ∧ readsReg State.reset.config (.sneReg 0 1) 1 = false := ⟨rfl, by decide⟩
theorem witness_SpecialState : exec (.ldReg 0 1) State.reset = .next (State.reset.setV 0 0) ∧
    (∀ p : Special, writesSpecial (.ldReg 0 1) p = false) ∧ raises (.ldReg 0 1) State.reset = none :=
  ⟨rfl, fun p => by cases p <;> rfl, rfl⟩
theorem witness_Memory : exec (.ldB 0) (State.reset.setIndex 0x300) =
      .next ((State.reset.setIndex 0x300).storeBytes 0x300 [0, 0, 0]) ∧
    0x2FF < (State.reset.setIndex 0x300).indexAddr 0 ∧
    (State.reset.setIndex 0x300).indexAddr 0 + storedBytes (.ldB 0) ≤ 0x303 ∧ storedBytes .cls = 0 := ⟨rfl, by decide⟩
theorem witness_FaultRegisters : transact .tick State.reset = .next (.none, tick State.reset) ∧ Transaction.tick ≠ .reset :=
  ⟨rfl, by decide⟩
theorem witness_KeyWrites : (15 : Key) ≠ 0 ∧ (host (.cycle 7) State.reset).2.pc = 0x202 := by decide
theorem witness_HostReads : 63 < 64 ∧ 31 < 32 ∧ 31 * 64 + 63 < 2048 := by decide
theorem witness_LoadRom : Memory.WF State.reset.config.font State.reset.mem ∧ (List.replicate 0xE00 (0xAA : Byte)).length ≤ 0xE00 ∧
    (List.replicate 0xE01 (0xAA : Byte)).length > 0xE00 ∧ 0x1FF < 0x200 ∧ 0x200 + 0xE00 ≤ 0x1000 :=
  ⟨by decide, by rw [List.length_replicate], by rw [List.length_replicate]; omega, by decide, by decide⟩
theorem witness_Reset : State.reset.config = Config.default ∧ State.reset.randCount = 0 := by decide
theorem witness_FirstCycle : (List.replicate 0xDFE (0 : Byte)).length + 2 ≤ 0xE00 := by rw [List.length_replicate]
/-- Also met where nothing is fetched, whatever the word at PC is. -/
theorem witness_OnlyRnd_faulted : ¬State.NoFault { State.reset with faulted := true, faultCause := 1 } := by decide
theorem witness_OnlyRnd (x : Reg) (kk : Byte) :
    decode State.reset.config.subDecode (BitVec.ofNat 16 State.reset.wordAtPc) ≠ .instr (.rnd x kk) := by
  rw [show decode State.reset.config.subDecode (BitVec.ofNat 16 State.reset.wordAtPc) = .instr (.sys 0) by decide]
  simp
theorem witness_StepIsACycle : State.reset.randIn = none := rfl
theorem witness_JumpToItself : let s := placed 0xFFE 0x1FFE
    s.NoFault ∧ s.pc.toNat ≤ 0xFFE ∧ s.wordAtPc = 0x1000 + s.pc.toNat := by decide
theorem witness_StepKeepsLegal : State.reset.Legal ∧ step State.reset = .next (after State.reset) := ⟨by decide, rfl⟩
/-- A faulted state with PC at its bound also meets the invariant. -/
theorem witness_StepKeepsLegal_faulted : let s : State := { State.reset with pc := 0x10FE, faulted := true, faultCause := 7 }
    s.Legal ∧ step s = .next s := ⟨by decide, rfl⟩
theorem witness_TransactionsKeepLegal : State.reset.Legal ∧
    transact (.loadRom [0x12, 0x00]) State.reset = .next (loadRom [0x12, 0x00] State.reset) := ⟨by decide, rfl⟩
theorem witness_Reachable : State.reset.Reachable ∧ (tick State.reset).Reachable :=
  ⟨⟨Config.default, [], [], rfl⟩, ⟨Config.default, [.tick], [.none], rfl⟩⟩
theorem witness_CanonicalMemory : Memory.WF Config.defaultFont [(0x050, 0x00), (0xFFF, 0x01)] ∧
    Memory.read Config.defaultFont [(0x050, 0x00), (0xFFF, 0x01)] 0x050 = 0x00 := by decide

end Sys2Proof.Tests
end

section

/-! PROOFS. The waiting byte `rand` of spec/00_scope.md R8 and spec/30_encoding.md R56: what `State.randIn` can do to a
cycle, and the two statements about the model's form of the input and of the configuration (log entries 1, 3 and 4). -/

namespace Sys2Proof.Machine

/-! ### A function applied to the state an outcome goes on with -/

/-- The outcome with its next state changed by `f`. -/
def mapNext (f : State → State) (r : Result) : Result :=
  match r with
  | .next t => .next (f t)
  | .fault e => .fault e
  | .refused e => .refused e

@[simp] theorem mapNext_next (f : State → State) (t : State) : mapNext f (.next t) = .next (f t) := rfl

theorem mapNext_mapNext (f g : State → State) (r : Result) :
    mapNext f (mapNext g r) = mapNext (fun t => f (g t)) r := by cases r <;> rfl

/-! ### The waiting byte -/

/-- The state with `o` as its waiting byte: `Cycle(rand)` starts from one, and `State.dropRand` is another. -/
def State.setRandIn (s : State) (o : Option Byte) : State := { s with randIn := o }

@[simp] theorem State.setRandIn_config (s : State) (o : Option Byte) : (s.setRandIn o).config = s.config := rfl
@[simp] theorem State.setRandIn_sp (s : State) (o : Option Byte) : (s.setRandIn o).sp = s.sp := rfl

theorem State.setRandIn_self {s : State} {o : Option Byte} (h : s.randIn = o) : s.setRandIn o = s := by
  subst h; rfl

/-- `Cycle(rand)` is a step from the state with the byte waiting, and no byte waits after it. -/
theorem cycle_eq_mapNext (rand : Byte) (s : State) :
    cycle rand s = mapNext State.dropRand (step (s.setRandIn (some rand))) := by
  unfold cycle mapNext State.setRandIn
  cases step { s with randIn := some rand } <;> rfl

/-! ### An instruction that is not RND passes the waiting byte on (R128) -/

section

variable (s : State) (o : Option Byte)

theorem State.writeRF_setRandIn (x : Reg) (rf : ResultFlag) :
    (s.setRandIn o).writeRF x rf = (s.writeRF x rf).setRandIn o := by
  unfold State.writeRF
  cases h : s.config.vfAsDest <;> simp only [State.setRandIn_config, h] <;> rfl

theorem memWrite_setRandIn (a : Nat) (bytes : List Byte) :
    memWrite (s.setRandIn o) a bytes = (memWrite s a bytes).map (State.setRandIn · o) := by
  unfold memWrite
  split_ifs <;> rfl

/-- A handler with one fault condition, where its continuation passes the waiting byte on. -/
theorem orRaise_setRandIn {α : Type} (e : Except FaultRaise α) {k k' : α → State}
    (hk : ∀ a, k' a = (k a).setRandIn o) :
    orRaise (s.setRandIn o) e k' = mapNext (State.setRandIn · o) (orRaise s e k) := by
  cases e with
  | error r => rfl
  | ok a => rw [orRaise_ok, orRaise_ok, mapNext_next, hk]

theorem orRaise_memWrite_setRandIn (a : Nat) (bytes : List Byte) :
    orRaise (s.setRandIn o) (memWrite (s.setRandIn o) a bytes) (fun t => t) =
      mapNext (State.setRandIn · o) (orRaise s (memWrite s a bytes) fun t => t) := by
  rw [memWrite_setRandIn]
  cases memWrite s a bytes <;> rfl

theorem execRet_setRandIn : execRet (s.setRandIn o) = mapNext (State.setRandIn · o) (execRet s) := by
  unfold execRet
  by_cases h : s.sp.val = 0 <;> simp only [State.setRandIn_sp, h, ↓reduceDIte] <;> rfl

theorem execCall_setRandIn (nnn : Addr12) :
    execCall nnn (s.setRandIn o) = mapNext (State.setRandIn · o) (execCall nnn s) := by
  unfold execCall
  by_cases h : s.sp.val = 16 <;> simp only [State.setRandIn_sp, h, ↓reduceDIte] <;> rfl

theorem execSneReg_setRandIn (x y : Reg) :
    execSneReg x y (s.setRandIn o) = mapNext (State.setRandIn · o) (execSneReg x y s) := by
  unfold execSneReg
  cases h : s.config.sneCompare <;> simp only [State.setRandIn_config, h] <;> rfl

theorem execLdVxKey_setRandIn (x : Reg) :
    execLdVxKey x (s.setRandIn o) = mapNext (State.setRandIn · o) (execLdVxKey x s) := by
  unfold execLdVxKey
  rw [show (s.setRandIn o).lowestKey = s.lowestKey from rfl]
  cases s.lowestKey <;> rfl

/-- RND is the one instruction that reads or writes the waiting byte: the others are straight-line updates that leave
it, `WriteRF`, a handler with one fault condition, or one of the four branches above. -/
theorem exec_setRandIn {i : Instr} (hi : ∀ x kk, i ≠ .rnd x kk) :
    exec i (s.setRandIn o) = mapNext (State.setRandIn · o) (exec i s) := by
  cases i with
  | rnd x kk => exact absurd rfl (hi x kk)
  | ret => exact execRet_setRandIn s o
  | call nnn => exact execCall_setRandIn s o nnn
  | sneReg x y => exact execSneReg_setRandIn s o x y
  | ldVxKey x => exact execLdVxKey_setRandIn s o x
  | addReg x _ | subReg x _ | shr x _ | subn x _ | shl x _ =>
    exact congrArg Host.Outcome.next (s.writeRF_setRandIn o x _)
  | ldB _ | storeRegs _ => exact orRaise_memWrite_setRandIn s o _ _
  | drw _ _ _ | skp _ | sknp _ | addI _ | loadRegs _ => exact orRaise_setRandIn s o _ fun _ => rfl
  | cls | sys _ | jp _ | seImm _ _ | sneImm _ _ | seReg _ _ | ldImm _ _ | addImm _ _ | ldReg _ _ | orReg _ _
  | andReg _ _ | xorReg _ _ | ldI _ | jpV0 _ | ldVxDt _ | ldDtVx _ | ldStVx _ | ldF _ => rfl

end

/-! ### A step without a waiting byte (R8, log entry 4) -/

/-- The state with the free value at the current count as its waiting byte. -/
def State.withFreeByte (s : State) : State := s.setRandIn (some (Config.randomByte s.randCount))

theorem State.randByte_withFreeByte {s : State} (h : s.randIn = none) : s.withFreeByte.randByte = s.randByte := by
  simp [State.randByte, State.withFreeByte, State.setRandIn, h]

section

variable {s : State}

/-- Where no byte waits, an instruction answers as with the free value waiting, which is dropped at the end: RND
consumes the same byte either way, and the others pass the waiting byte on. -/
theorem exec_eq_mapNext_dropRand (h : s.randIn = none) (i : Instr) :
    exec i s = mapNext State.dropRand (exec i s.withFreeByte) := by
  by_cases hi : ∀ x kk, i ≠ .rnd x kk
  · calc exec i s = exec i (s.setRandIn none) := by rw [State.setRandIn_self h]
      _ = mapNext State.dropRand (exec i s) := exec_setRandIn s none hi
      _ = mapNext State.dropRand (exec i s.withFreeByte) := by
        rw [State.withFreeByte, exec_setRandIn s _ hi, mapNext_mapNext]
        rfl
  · simp only [not_forall, not_not] at hi
    obtain ⟨x, kk, rfl⟩ := hi
    exact congrArg (fun b => Host.Outcome.next (s.setV x (b &&& kk)).consumeRand) (State.randByte_withFreeByte h).symm

theorem execHandler_eq_mapNext_dropRand (h : s.randIn = none) (hd : Handler) :
    execHandler hd s = mapNext State.dropRand (execHandler hd s.withFreeByte) := by
  cases hd with
  | instr i => exact exec_eq_mapNext_dropRand h i
  | unmatched => exact congrArg Host.Outcome.next (State.setRandIn_self h).symm

theorem endOf_mapNext_dropRand (r : Result) : endOf (mapNext State.dropRand r) = mapNext State.dropRand (endOf r) := by
  cases r <;> rfl

/-- The three branches of a cycle: a faulted core, a fetch that fails, and a handler. -/
theorem step_eq_mapNext_dropRand (h : s.randIn = none) :
    step s = mapNext State.dropRand (step s.withFreeByte) := by
  have hself : s.setRandIn none = s := State.setRandIn_self h
  cases hf : s.faulted with
  | true =>
    rw [step_of_faulted hf, step_of_faulted (s := s.withFreeByte) hf]
    exact congrArg Host.Outcome.next hself.symm
  | false =>
    cases hfetch : fetch s with
    | error r =>
      rw [step_of_fetch_error hf hfetch, step_of_fetch_error (s := s.withFreeByte) hf hfetch]
      exact congrArg (fun t : State => Host.Outcome.next (t.takeFault r t.pc 0x0000).endCycle) hself.symm
    | ok op =>
      rw [step_of_fetch_ok hf hfetch, step_of_fetch_ok (s := s.withFreeByte) hf hfetch,
        execHandler_eq_mapNext_dropRand (s := s.beginCycle op) h, endOf_mapNext_dropRand]
      rfl

end

/-- Settles O51: a step without a waiting byte is the step with the free value waiting. -/
theorem stepIsACycleOfSomeByte : Obligations.StepIsACycleOfSomeByte := by
  intro s h
  rw [cycle_eq_mapNext]
  exact step_eq_mapNext_dropRand h

/-! ### Reset (R135, log entries 1, 3 and 4) -/

/-- With no byte consumed yet, Reset() gives the reset state of the configuration. -/
theorem resetCore_eq_resetWith {s : State} (h : s.randCount = 0) : resetCore s = State.resetWith s.config := by
  unfold resetCore
  rw [h]
  rfl

/-- Settles O48: the fields of `resetCore`, and `State.reset` where the machine is fresh. -/
theorem resetKeepsTheConfiguration : Obligations.ResetKeepsTheConfiguration := by
  intro s
  refine ⟨resetCore s, rfl, rfl, rfl, rfl, rfl, fun hconfig hcount => ?_⟩
  rw [resetCore_eq_resetWith hcount, hconfig]
  rfl

end Sys2Proof.Machine
end

section

/-! PROOFS. Everything an instruction can do, said once: it raises the fault `raises` names, or it completes with an
update of its own kind (spec/10_state.md R14, R26, spec/60_exceptions.md R113). The frames and the invariant of
spec/10_state.md follow from it. -/

namespace Sys2Proof.Machine

/-! ### The outcome of an instruction -/

/-- `t` is `s` after the instruction completed without a fault: which named update it is, and of the values written what
the frames and the invariant need. -/
def Completes (i : Instr) (s t : State) : Prop :=
  match i with
  | .sys _ => t = s
  | .cls => ∃ fb, t = s.setFb fb
  | .drw _ _ _ => ∃ fb c, t = (s.setFb fb).setV vf (flagByte c)
  | .ret => ∃ h, t = s.popPc h
  | .call nnn => ∃ h, t = (s.push s.pc h).setPc (zextAddr nnn)
  | .jp _ | .jpV0 _ => ∃ w, w.toNat ≤ 0x10FE ∧ t = s.setPc w
  | .seImm _ _ | .sneImm _ _ | .seReg _ _ | .sneReg _ _ | .skp _ | .sknp _ => ∃ c, t = s.skipIf c
  | .ldImm x _ | .addImm x _ | .ldReg x _ | .orReg x _ | .andReg x _ | .xorReg x _ | .ldVxDt x => ∃ b, t = s.setV x b
  | .addReg x _ | .subReg x _ | .subn x _ | .shr x _ | .shl x _ =>
    ∃ rf, (rf.flag = 0 ∨ rf.flag = 1) ∧ t = s.writeRF x rf
  | .rnd x _ => ∃ b, t = (s.setV x b).consumeRand
  | .ldVxKey x => (∃ b, t = s.setV x b) ∨ t = s.setPc (s.pc - 2)
  | .ldDtVx _ => ∃ b, t = s.setDt b
  | .ldStVx _ => ∃ b, t = s.setSt b
  | .ldI _ | .addI _ | .ldF _ => ∃ w, t = s.setIndex w
  | .ldB _ | .storeRegs _ =>
    ∃ bytes, bytes.length = storedBytes i ∧ s.indexAddr 0 + bytes.length ≤ 0x1000 ∧ t = s.storeBytes (s.indexAddr 0) bytes
  | .loadRegs x => ∃ bytes, t = s.setRegsUpTo x bytes

/-- The instruction raised, as a fault, what its row of R113 says. -/
def Faults (i : Instr) (s t : State) : Prop :=
  ∃ r : FaultRaise, raises i s = some (r.cause.code.toNat, r.info.toNat) ∧ t = s.raise r

/-- Everything an instruction can do: `exec_cases` ties it to `exec`. -/
def Answers (i : Instr) (s t : State) : Prop := (raises i s = none ∧ Completes i s t) ∨ Faults i s t

/-! ### The values an outcome is written with -/

@[simp] theorem State.indexAddr_zero (s : State) : s.indexAddr 0 = s.index.toNat := rfl

@[simp] theorem State.regsUpTo_length (s : State) (x : Reg) : (s.regsUpTo x).length = x.val + 1 := by
  simp [State.regsUpTo]

@[simp] theorem decimalDigits_length (b : Byte) : (decimalDigits b).length = 3 := rfl

/-! A flag is 0 or 1 (R15). -/

theorem flagByte_eq_zero_or_one (c : Bool) : flagByte c = 0 ∨ flagByte c = 1 := by
  cases c
  · exact .inl rfl
  · exact .inr rfl

theorem shrFlag_flag (a : Byte) : (shrFlag a).flag = 0 ∨ (shrFlag a).flag = 1 := by
  have h : (a &&& 1).toNat = a.toNat % 2 := by simp
  simp only [shrFlag]; bv_omega

theorem shlFlag_flag (a : Byte) : (shlFlag a).flag = 0 ∨ (shlFlag a).flag = 1 := by
  have := a.isLt
  have h : (a >>> 7).toNat = a.toNat / 128 := by simp [Nat.shiftRight_eq_div_pow]
  simp only [shlFlag]; bv_omega

/-! The infos of R113 and the jump targets are exact. -/

theorem zext16_toNat (b : Byte) : (zext16 b).toNat = b.toNat := by
  simp [zext16]; omega

theorem zextAddr_toNat (nnn : Addr12) : (zextAddr nnn).toNat = nnn.toNat := by
  simp [zextAddr]; omega

theorem rangeInfo_index_toNat (w : Word) : (rangeInfo w.toNat).toNat = max w.toNat 0x1000 := by
  simp [rangeInfo]; omega

/-- The target of JP V0 is the exact sum (R79). -/
theorem zext16_add_zextAddr_toNat (b : Byte) (nnn : Addr12) :
    (zext16 b + zextAddr nnn).toNat = b.toNat + nnn.toNat := by
  rw [BitVec.toNat_add, zext16_toNat, zextAddr_toNat]; omega

/-! ### One lemma per handler that branches, and `exec` from them -/

section

variable {s t : State}

theorem execRet_cases (h : execRet s = .next t) : Answers .ret s t := by
  unfold execRet at h
  split at h <;> cases h
  case isTrue hsp => exact .inr ⟨_, by simp [raises, hsp, FaultCause.code], rfl⟩
  case isFalse hsp => exact .inl ⟨by simp [raises, hsp], hsp, rfl⟩

theorem execCall_cases {nnn : Addr12} (h : execCall nnn s = .next t) : Answers (.call nnn) s t := by
  unfold execCall at h
  split at h <;> cases h
  case isTrue hsp => exact .inr ⟨_, by simp [raises, hsp, FaultCause.code, zextAddr_toNat], rfl⟩
  case isFalse hsp => exact .inl ⟨by simp [raises, hsp], hsp, rfl⟩

theorem execSneReg_cases {x y : Reg} (h : execSneReg x y s = .next t) : ∃ c, t = s.skipIf c := by
  unfold execSneReg at h
  split at h <;> cases h <;> exact ⟨_, rfl⟩

theorem execLdVxKey_cases {x : Reg} (h : execLdVxKey x s = .next t) :
    (∃ b, t = s.setV x b) ∨ t = s.setPc (s.pc - 2) := by
  unfold execLdVxKey at h
  split at h <;> cases h
  · exact .inl ⟨_, rfl⟩
  · exact .inr rfl

/-- The two stores through I: all `n + 1` bytes, or MEM_WRITE_RANGE (R40). -/
theorem store_cases {bytes : List Byte} {n : Nat} (hlen : bytes.length = n + 1)
    (h : orRaise s (memWrite s (s.indexAddr 0) bytes) (fun u => u) = .next t) :
    (s.index.toNat + n ≤ 0xFFF ∧ t = s.storeBytes (s.indexAddr 0) bytes) ∨
    (s.index.toNat + n > 0xFFF ∧ t = s.raise ⟨.memWriteRange, rangeInfo s.index.toNat⟩) := by
  rcases memWrite_cases s (s.indexAddr 0) bytes with ⟨hrange, hw⟩ | ⟨hrange, hw⟩ <;> rw [hw] at h <;> cases h
  · exact .inl ⟨by simp at hrange; omega, rfl⟩
  · exact .inr ⟨by simp at hrange; omega, rfl⟩

theorem execLdB_cases {x : Reg} (h : execLdB x s = .next t) : Answers (.ldB x) s t := by
  rcases store_cases (decimalDigits_length _) h with ⟨hrange, rfl⟩ | ⟨hrange, rfl⟩
  · exact .inl ⟨by simp [raises]; omega, _, decimalDigits_length _, by simp; omega, rfl⟩
  · exact .inr ⟨_, by simp [raises, FaultCause.code, rangeInfo_index_toNat]; omega, rfl⟩

theorem execStoreRegs_cases {x : Reg} (h : execStoreRegs x s = .next t) : Answers (.storeRegs x) s t := by
  rcases store_cases (s.regsUpTo_length x) h with ⟨hrange, rfl⟩ | ⟨hrange, rfl⟩
  · exact .inl ⟨by simp [raises]; omega, _, s.regsUpTo_length x, by simp; omega, rfl⟩
  · exact .inr ⟨_, by simp [raises, FaultCause.code, rangeInfo_index_toNat]; omega, rfl⟩

theorem execLoadRegs_cases {x : Reg} (h : execLoadRegs x s = .next t) : Answers (.loadRegs x) s t := by
  unfold execLoadRegs at h
  rcases memRead_cases s (s.indexAddr 0) (x.val + 1) with ⟨hrange, hr⟩ | ⟨hrange, hr⟩ <;> rw [hr] at h <;> cases h
  · exact .inl ⟨by simp_all [raises], _, rfl⟩
  · exact .inr ⟨_, by simp_all [raises, FaultCause.code, rangeInfo_index_toNat], rfl⟩

theorem execDrw_cases {x y : Reg} {n : Height} (h : execDrw x y n s = .next t) : Answers (.drw x y n) s t := by
  unfold execDrw at h
  rcases s.spriteRows_cases n with ⟨hn, hr⟩ | ⟨hn, hr⟩
  · rw [hr] at h; cases h
    exact .inl ⟨by simp [raises, hn], _, _, rfl⟩
  · rcases memRead_cases s s.index.toNat n.val with ⟨hrange, hm⟩ | ⟨hrange, hm⟩ <;> rw [hr, hm] at h <;> cases h
    · exact .inl ⟨if_neg (by omega), _, _, rfl⟩
    · exact .inr ⟨_, by simp [raises, hn, hrange, FaultCause.code, rangeInfo_index_toNat], rfl⟩

/-- The two key skips: `test` is what the skip asks of the key. -/
theorem keySkip_cases {x : Reg} {test : Key → Bool}
    (h : orRaise s (s.keyOperand x) (fun k => s.skipIf (test k)) = .next t) :
    (s.v[x].toNat ≤ 0xF ∧ ∃ c, t = s.skipIf c) ∨ (s.v[x].toNat > 0xF ∧ t = s.raise ⟨.keyRange, zext16 s.v[x]⟩) := by
  rcases s.keyOperand_cases x with ⟨k, hk, ho⟩ | ⟨hrange, ho⟩ <;> rw [ho] at h <;> cases h
  · exact .inl ⟨by omega, _, rfl⟩
  · exact .inr ⟨hrange, rfl⟩

theorem execSkp_cases {x : Reg} (h : execSkp x s = .next t) : Answers (.skp x) s t := by
  rcases keySkip_cases h with ⟨hrange, hc⟩ | ⟨hrange, rfl⟩
  · exact .inl ⟨if_neg (by omega), hc⟩
  · exact .inr ⟨_, by simp_all [raises, FaultCause.code, zext16_toNat], rfl⟩

theorem execSknp_cases {x : Reg} (h : execSknp x s = .next t) : Answers (.sknp x) s t := by
  rcases keySkip_cases h with ⟨hrange, hc⟩ | ⟨hrange, rfl⟩
  · exact .inl ⟨if_neg (by omega), hc⟩
  · exact .inr ⟨_, by simp_all [raises, FaultCause.code, zext16_toNat], rfl⟩

theorem execAddI_cases {x : Reg} (h : execAddI x s = .next t) : Answers (.addI x) s t := by
  unfold execAddI at h
  rcases s.indexSum_cases x with ⟨hrange, hs⟩ | ⟨hrange, hs⟩ <;> rw [hs] at h <;> cases h
  · exact .inl ⟨if_neg (by omega), _, rfl⟩
  · exact .inr ⟨_, by simp_all [raises, FaultCause.code, zext16_toNat], rfl⟩

/-- Everything an instruction can do: the handlers that branch by their lemmas, the others by their one update. -/
theorem exec_cases {i : Instr} (h : exec i s = .next t) : Answers i s t := by
  cases i with
  | ret => exact execRet_cases h
  | call nnn => exact execCall_cases h
  | ldB x => exact execLdB_cases h
  | storeRegs x => exact execStoreRegs_cases h
  | loadRegs x => exact execLoadRegs_cases h
  | drw x y n => exact execDrw_cases h
  | skp x => exact execSkp_cases h
  | sknp x => exact execSknp_cases h
  | addI x => exact execAddI_cases h
  | sneReg x y => exact .inl ⟨rfl, execSneReg_cases h⟩
  | ldVxKey x => exact .inl ⟨rfl, execLdVxKey_cases h⟩
  | sys _ => cases h; exact .inl ⟨rfl, rfl⟩
  | jp nnn => cases h; exact .inl ⟨rfl, _, by rw [zextAddr_toNat]; omega, rfl⟩
  | jpV0 nnn => cases h; exact .inl ⟨rfl, _, by rw [zext16_add_zextAddr_toNat]; omega, rfl⟩
  | addReg _ _ | subReg _ _ | subn _ _ => cases h; exact .inl ⟨rfl, _, flagByte_eq_zero_or_one _, rfl⟩
  | shr x _ => cases h; exact .inl ⟨rfl, _, shrFlag_flag s.v[x], rfl⟩
  | shl x _ => cases h; exact .inl ⟨rfl, _, shlFlag_flag s.v[x], rfl⟩
  | cls | seImm _ _ | sneImm _ _ | seReg _ _ | ldImm _ _ | addImm _ _ | ldReg _ _ | orReg _ _ | andReg _ _ | xorReg _ _
  | ldI _ | rnd _ _ | ldVxDt _ | ldDtVx _ | ldStVx _ | ldF _ => cases h; exact .inl ⟨rfl, _, rfl⟩

/-- An instruction that raises nothing completes. -/
theorem completes_of_exec {i : Instr} (h : exec i s = .next t) (hr : raises i s = none) : Completes i s t := by
  rcases exec_cases h with ⟨-, hc⟩ | ⟨r, hsome, -⟩
  · exact hc
  · simp [hr] at hsome

end

end Sys2Proof.Machine
end

section

/-! PROOFS. Frames: which special state, flag and general registers an instruction leaves as they were
(spec/10_state.md R14, R15, R22, R26), and then a step and a transaction (R24, R25, spec/60_exceptions.md R129). -/

namespace Sys2Proof.Machine

/-! ### The special state an instruction writes (R22, R26) -/

/-- Settles O40: a fault changes PC and the fault registers only, and a completed instruction what its update names. -/
theorem specialStateFrame : Obligations.SpecialStateFrame := by
  intro i s t h
  rcases exec_cases h with ⟨-, hc⟩ | ⟨r, hr, rfl⟩
  case inr => simp [hr]
  cases i with
  | sys _ => subst hc; simp
  | drw _ _ _ => obtain ⟨_, _, rfl⟩ := hc; simp [writesSpecial]
  | jp _ | jpV0 _ | addReg _ _ | subReg _ _ | subn _ _ | shr _ _ | shl _ _ =>
    obtain ⟨_, -, rfl⟩ := hc; simp [writesSpecial]
  | ldB _ | storeRegs _ => obtain ⟨_, -, -, rfl⟩ := hc; simp [writesSpecial]
  | ldVxKey _ => obtain ⟨_, rfl⟩ | rfl := hc <;> simp [writesSpecial]
  | cls | ret | call _ | seImm _ _ | sneImm _ _ | seReg _ _ | sneReg _ _ | skp _ | sknp _ | ldImm _ _ | addImm _ _
  | ldReg _ _ | orReg _ _ | andReg _ _ | xorReg _ _ | ldVxDt _ | rnd _ _ | ldDtVx _ | ldStVx _ | ldI _ | addI _ | ldF _
  | loadRegs _ => obtain ⟨_, rfl⟩ := hc; simp [writesSpecial]

/-! ### The flag (R15) -/

/-- `WriteRF` leaves the flag in VF, unless the result is written over it (R82). -/
theorem State.writeRF_vf {s : State} {x : Reg} (h : s.config.vfAsDest = .flagLast ∨ x ≠ vf) (rf : ResultFlag) :
    (s.writeRF x rf).v[vf] = rf.flag := by
  rw [State.writeRF_get, if_pos ⟨rfl, fun hx => h.resolve_right (· hx)⟩]

/-- Settles O21: the instruction completes, with VF as `WriteRF` or the draw leaves it. -/
theorem flagsAreZeroOrOne : Obligations.FlagsAreZeroOrOne := by
  intro s t x y n i hi hraises hdest h
  have hc := completes_of_exec h hraises
  simp only [List.mem_cons, List.not_mem_nil, or_false] at hi
  rcases hi with rfl | rfl | rfl | rfl | rfl | rfl
  on_goal 6 =>
    obtain ⟨fb, c, rfl⟩ := hc
    rw [State.setV_get, if_pos rfl]
    exact flagByte_eq_zero_or_one c
  all_goals
    obtain ⟨rf, hflag, rfl⟩ := hc
    rw [State.writeRF_vf (hdest.resolve_left nofun)]
    exact hflag

/-! ### The general registers an instruction writes and reads (R14) -/

section

variable {s t : State} {x y r : Reg} {b : Byte}

theorem State.setV_get_of_ne (h : r ≠ x) : (s.setV x b).v[r] = s.v[r] := by
  rw [State.setV_get, if_neg h]

theorem State.writeRF_get_of_ne (hx : r ≠ x) (hvf : r ≠ vf) (rf : ResultFlag) : (s.writeRF x rf).v[r] = s.v[r] := by
  rw [State.writeRF_get, if_neg (fun h => hvf h.1), if_neg hx]

/-- A register the instruction's row does not list as written is as it was. -/
theorem get_of_completes {i : Instr} (h : Completes i s t) (hw : writesReg i r = false) : t.v[r] = s.v[r] := by
  cases i <;> simp only [writesReg, Bool.or_eq_false_iff, beq_eq_false_iff_ne, decide_eq_false_iff_not] at hw
  case sys => subst h; rfl
  case drw => obtain ⟨fb, c, rfl⟩ := h; exact State.setV_get_of_ne hw
  case ldImm | addImm | ldReg | orReg | andReg | xorReg | ldVxDt | rnd =>
    obtain ⟨b, rfl⟩ := h
    exact State.setV_get_of_ne hw
  case ldVxKey =>
    obtain ⟨b, rfl⟩ | rfl := h
    · exact State.setV_get_of_ne hw
    · rfl
  case addReg | subReg | subn | shr | shl =>
    obtain ⟨rf, -, rfl⟩ := h
    exact State.writeRF_get_of_ne hw.1 hw.2 rf
  case loadRegs =>
    obtain ⟨bytes, rfl⟩ := h
    rw [State.setRegsUpTo_get, if_neg hw]
  case jp | jpV0 => obtain ⟨w, -, rfl⟩ := h; rfl
  case ldB | storeRegs => obtain ⟨bytes, -, -, rfl⟩ := h; rfl
  case cls | ret | call | seImm | sneImm | seReg | sneReg | skp | sknp | ldDtVx | ldStVx | ldI | addI | ldF =>
    obtain ⟨_, rfl⟩ := h; rfl

theorem get_of_exec {i : Instr} (h : exec i s = .next t) (hw : writesReg i r = false) : t.v[r] = s.v[r] := by
  rcases exec_cases h with ⟨-, hc⟩ | ⟨_, -, rfl⟩
  · exact get_of_completes hc hw
  · rfl

/-! ### A register that plays no part passes through -/

theorem State.setV_comm (h : r ≠ x) (c : Byte) : (s.setV r b).setV x c = (s.setV x c).setV r b := by
  simp only [State.setV]
  rw [Vector.set_comm]
  exact fun hval => h (Fin.ext hval)

theorem State.writeRF_setV (hx : r ≠ x) (hvf : r ≠ vf) (rf : ResultFlag) :
    (s.setV r b).writeRF x rf = (s.writeRF x rf).setV r b := by
  unfold State.writeRF
  cases h : s.config.vfAsDest <;> simp only [State.setV_config, h, State.setV_comm hx, State.setV_comm hvf]

theorem State.setRegsUpTo_setV (hx : ¬r ≤ x) (bytes : List Byte) :
    (s.setV r b).setRegsUpTo x bytes = (s.setRegsUpTo x bytes).setV r b := by
  have hget (k : Reg) : ((s.setV r b).setRegsUpTo x bytes).v[k] = ((s.setRegsUpTo x bytes).setV r b).v[k] := by
    by_cases hk : k = r
    · subst hk
      rw [State.setRegsUpTo_get, if_neg hx, State.setV_get, State.setV_get, if_pos rfl, if_pos rfl]
    · rw [State.setV_get_of_ne hk, State.setRegsUpTo_get, State.setRegsUpTo_get, State.setV_get_of_ne hk]
  exact congrArg (fun v => { s with v := v }) (Vector.ext fun j hj => hget ⟨j, hj⟩)

theorem State.regsUpTo_setV (hx : ¬r ≤ x) : (s.setV r b).regsUpTo x = s.regsUpTo x := by
  apply List.ext_getElem
  · simp
  · intro j hj _
    have hne : r.val ≠ j := by
      rw [State.regsUpTo_length] at hj
      rw [Fin.le_def] at hx
      omega
    simp [State.regsUpTo, hne]

theorem State.keyOperand_setV (hx : x ≠ r) : (s.setV r b).keyOperand x = s.keyOperand x := by
  simp only [State.keyOperand, State.setV_get_of_ne hx]

theorem State.indexSum_setV (hx : x ≠ r) : (s.setV r b).indexSum x = s.indexSum x := by
  simp only [State.indexSum, State.setV_get_of_ne hx, State.setV_index]

theorem State.setFb_setV (fb : FrameBuffer) : (s.setV r b).setFb fb = (s.setFb fb).setV r b := rfl

/-- A handler with one fault condition, where its continuation passes the register on. -/
theorem orRaise_setV {α : Type} (e : Except FaultRaise α) {k k' : α → State} (hk : ∀ a, k' a = (k a).setV r b) :
    orRaise (s.setV r b) e k' = mapNext (State.setV · r b) (orRaise s e k) := by
  cases e with
  | error f => rfl
  | ok a => rw [orRaise_ok, orRaise_ok, mapNext_next, hk]

theorem orRaise_memWrite_setV (a : Nat) (bytes : List Byte) :
    orRaise (s.setV r b) (memWrite (s.setV r b) a bytes) (fun t => t) =
      mapNext (State.setV · r b) (orRaise s (memWrite s a bytes) fun t => t) := by
  unfold memWrite
  split_ifs <;> rfl

theorem execRet_setV : execRet (s.setV r b) = mapNext (State.setV · r b) (execRet s) := by
  unfold execRet
  by_cases h : s.sp.val = 0 <;> simp only [State.setV_sp, h, ↓reduceDIte] <;> rfl

theorem execCall_setV (nnn : Addr12) : execCall nnn (s.setV r b) = mapNext (State.setV · r b) (execCall nnn s) := by
  unfold execCall
  by_cases h : s.sp.val = 16 <;> simp only [State.setV_sp, h, ↓reduceDIte] <;> rfl

/-- The registers are compared under `value_ne` only. -/
theorem execSneReg_setV (hr : s.config.sneCompare = .valueNe → r ≠ x ∧ r ≠ y) :
    execSneReg x y (s.setV r b) = mapNext (State.setV · r b) (execSneReg x y s) := by
  unfold execSneReg
  cases h : s.config.sneCompare with
  | indexNe => simp only [State.setV_config, h]; rfl
  | valueNe =>
    obtain ⟨hx, hy⟩ := hr h
    simp only [State.setV_config, h, State.setV_get_of_ne hx.symm, State.setV_get_of_ne hy.symm]; rfl

theorem execLdVxKey_setV (hx : r ≠ x) :
    execLdVxKey x (s.setV r b) = mapNext (State.setV · r b) (execLdVxKey x s) := by
  unfold execLdVxKey
  rw [show (s.setV r b).lowestKey = s.lowestKey from rfl]
  cases s.lowestKey with
  | none => rfl
  | some k => exact congrArg Host.Outcome.next (State.setV_comm hx _)

theorem execDrw_setV (n : Height) (hx : x ≠ r) (hy : y ≠ r) (hvf : r ≠ vf) :
    execDrw x y n (s.setV r b) = mapNext (State.setV · r b) (execDrw x y n s) := by
  refine orRaise_setV _ fun rows => ?_
  simp only [State.originColumn, State.originRow, State.setV_get_of_ne hx, State.setV_get_of_ne hy]
  rw [State.setFb_setV]
  exact State.setV_comm hvf _

/-- A register the instruction lists neither as written nor as read passes through it. -/
theorem exec_setV {i : Instr} (hw : writesReg i r = false) (hr : readsReg s.config i r = false) :
    exec i (s.setV r b) = mapNext (State.setV · r b) (exec i s) := by
  cases i <;>
    simp only [writesReg, readsReg, Bool.or_eq_false_iff, beq_eq_false_iff_ne, decide_eq_false_iff_not] at hw hr
  case cls | sys | jp | ldI => rfl
  case ret => exact execRet_setV
  case call nnn => exact execCall_setV nnn
  case seImm | sneImm | ldDtVx | ldStVx | ldF =>
    simp only [exec, execSeImm, execSneImm, execLdDtVx, execLdStVx, execLdF, State.setV_get_of_ne hr.symm]; rfl
  case jpV0 nnn =>
    exact congrArg (fun v0 => Host.Outcome.next ((s.setPc (zext16 v0 + zextAddr nnn)).setV r b))
      (State.setV_get_of_ne (x := r) (r := 0) hr.symm)
  case seReg =>
    simp only [exec, execSeReg, State.setV_get_of_ne hr.1.symm, State.setV_get_of_ne hr.2.symm]; rfl
  case sneReg => exact execSneReg_setV fun h => by simpa [h] using hr
  case ldImm | ldVxDt => exact congrArg Host.Outcome.next (State.setV_comm hw _)
  case ldVxKey => exact execLdVxKey_setV hw
  case rnd => exact congrArg (fun u => Host.Outcome.next (State.consumeRand u)) (State.setV_comm hw _)
  case addImm | ldReg =>
    simp only [exec, execAddImm, execLdReg, State.setV_get_of_ne hr.symm, State.setV_comm hw, mapNext_next]
  case orReg | andReg | xorReg =>
    simp only [exec, execOrReg, execAndReg, execXorReg, State.setV_get_of_ne hr.1.symm, State.setV_get_of_ne hr.2.symm,
      State.setV_comm hw, mapNext_next]
  case addReg | subReg | subn =>
    simp only [exec, execAddReg, execSubReg, execSubn, State.setV_get_of_ne hr.1.symm, State.setV_get_of_ne hr.2.symm,
      State.writeRF_setV hw.1 hw.2, mapNext_next]
  case shr | shl =>
    simp only [exec, execShr, execShl, State.setV_get_of_ne hr.symm, State.writeRF_setV hw.1 hw.2, mapNext_next]
  case drw n => exact execDrw_setV n hr.1.symm hr.2.symm hw
  case skp | sknp =>
    simp only [exec, execSkp, execSknp, State.keyOperand_setV hr.symm]
    exact orRaise_setV _ fun _ => rfl
  case addI =>
    simp only [exec, execAddI, State.indexSum_setV hr.symm]
    exact orRaise_setV _ fun _ => rfl
  case ldB =>
    simp only [exec, execLdB, State.setV_get_of_ne hr.symm]
    exact orRaise_memWrite_setV _ _
  case storeRegs =>
    simp only [exec, execStoreRegs, State.regsUpTo_setV hr]
    exact orRaise_memWrite_setV _ _
  case loadRegs => exact orRaise_setV _ fun bytes => State.setRegsUpTo_setV hw bytes

end

/-- Settles O39: what is written is what the outcome names, and a register that plays no part passes through. -/
theorem registersWrittenAndRead : Obligations.RegistersWrittenAndRead := by
  intro i s t h
  refine ⟨fun r hw => get_of_exec h hw, fun r b hw hr => ?_⟩
  calc exec i (s.setV r b) = mapNext (State.setV · r b) (exec i s) := exec_setV hw hr
    _ = .next (t.setV r b) := by rw [h, mapNext_next]

/-! ### A step and a transaction -/

section
variable {s t : State} {i : Instr}

/-- The fault status registers, as the host reads them, change only by a fault (R25). -/
theorem exec_statusRead (h : exec i s = .next t) : statusRead t = statusRead s ∨ t.faulted = true := by
  rcases exec_cases h with ⟨hraises, -⟩ | ⟨r, -, rfl⟩
  · obtain ⟨-, -, -, -, -, -, -, -, hstatus, -⟩ := specialStateFrame i s t h
    obtain ⟨hfaulted, hcause, hpc, hopcode, hinfo⟩ := hstatus hraises
    exact .inl (by simp only [statusRead, hfaulted, hcause, hpc, hopcode, hinfo])
  · exact .inr rfl

theorem exec_keys (h : exec i s = .next t) : t.keys = s.keys := by
  obtain ⟨-, -, -, -, -, -, -, -, -, hkeys, -⟩ := specialStateFrame i s t h
  exact hkeys

/-- Only RND touches the waiting byte, and it leaves none. -/
theorem exec_randIn_none (h : exec i s = .next t) (hs : s.randIn = none) : t.randIn = none := by
  cases hw : writesSpecial i .rand with
  | false =>
    obtain ⟨-, -, -, -, -, -, -, hrand, -⟩ := specialStateFrame i s t h
    rw [(hrand hw).1, hs]
  | true =>
    obtain ⟨x, kk, rfl⟩ : ∃ x kk, i = .rnd x kk := by cases i <;> simp [writesSpecial] at hw ⊢
    cases h; rfl

/-- A handler, where the word is unmatched, does nothing. -/
theorem execHandler_cases {hd : Handler} (h : execHandler hd s = .next t) : t = s ∨ ∃ i, exec i s = .next t := by
  cases hd with
  | unmatched => cases h; exact .inl rfl
  | instr i => exact .inr ⟨i, h⟩

theorem step_statusRead (h : step s = .next t) :
    statusRead t = statusRead s ∨ (s.faulted = false ∧ t.faulted = true) := by
  rcases step_cases h with ⟨-, rfl⟩ | ⟨hf, -, rfl⟩ | ⟨hf, -, op, u, -, -, hu, rfl⟩
  · exact .inl rfl
  · exact .inr ⟨hf, rfl⟩
  · rcases execHandler_cases hu with rfl | ⟨i, hi⟩
    · exact .inl rfl
    · exact (exec_statusRead hi).imp id fun hu => ⟨hf, hu⟩

theorem step_keys (h : step s = .next t) : t.keys = s.keys := by
  rcases step_cases h with ⟨-, rfl⟩ | ⟨-, -, rfl⟩ | ⟨-, -, op, u, -, -, hu, rfl⟩
  · rfl
  · rfl
  · rcases execHandler_cases hu with rfl | ⟨i, hi⟩
    · rfl
    · rw [State.endCycle_keys, exec_keys hi, State.beginCycle_keys]

theorem step_randIn_none (h : step s = .next t) (hs : s.randIn = none) : t.randIn = none := by
  rcases step_cases h with ⟨-, rfl⟩ | ⟨-, -, rfl⟩ | ⟨-, -, op, u, -, -, hu, rfl⟩
  · exact hs
  · exact hs
  · rcases execHandler_cases hu with rfl | ⟨i, hi⟩
    · exact hs
    · rw [State.endCycle_randIn, exec_randIn_none hi hs]

theorem step_opcode (h : step s = .next t) (hs : s.opcode = 0) : t.opcode = 0 := by
  rcases step_cases h with ⟨-, rfl⟩ | ⟨-, -, rfl⟩ | ⟨-, -, op, u, -, -, -, rfl⟩
  · exact hs
  · rfl
  · rfl

/-! ### Transactions -/

/-- `LoadROM` copies the bytes, where they fit, or changes nothing (R137). -/
theorem transact_loadRom {bytes : List Byte} {r : Reply} (h : transact (.loadRom bytes) s = .next (r, t)) :
    t = s ∨ (0x200 + bytes.length ≤ 0x1000 ∧ t = s.storeBytes 0x200 bytes) := by
  simp only [transact, loadRom, Host.Outcome.next.injEq] at h
  split at h <;> cases h
  · exact .inl rfl
  · exact .inr ⟨by omega, rfl⟩

/-- `Cycle(rand)` is a step with the byte waiting, and none waits after it. -/
theorem transact_cycle {rand : Byte} {r : Reply} (h : transact (.cycle rand) s = .next (r, t)) :
    ∃ u, step (s.setRandIn (some rand)) = .next u ∧ t = u.dropRand := by
  simp only [transact] at h
  split at h <;> cases h
  case h_1 hcycle => exact cycle_eq_next hcycle

end

/-- Settles O42: a cycle by its step, the other transactions by the fields they name. -/
theorem faultRegistersAndKeypadFrame : Obligations.FaultRegistersAndKeypadFrame := by
  intro tr s u r h hreset
  cases tr with
  | reset => exact absurd rfl hreset
  | loadRom bytes => obtain rfl | ⟨-, rfl⟩ := transact_loadRom h <;> simp
  | cycle rand =>
    obtain ⟨v, hv, rfl⟩ := transact_cycle h
    have hkeys : v.keys = s.keys := step_keys (s := s.setRandIn (some rand)) hv
    refine ⟨?_, .inl hkeys⟩
    obtain hstatus | hfault := step_statusRead hv
    · exact .inl (FaultStatus.mk.inj hstatus)
    · exact .inr ⟨⟨rand, rfl⟩, hfault⟩
  | tick | fbRead | statusRead => cases h; exact ⟨.inl ⟨rfl, rfl, rfl, rfl, rfl⟩, .inl rfl⟩
  | keyWrite k pressed =>
    cases h
    refine ⟨.inl ⟨rfl, rfl, rfl, rfl, rfl⟩, .inr ⟨k, pressed, rfl, fun j hj => ?_⟩⟩
    exact Vector.getElem_set_ne k.isLt j.isLt fun hval => hj (Fin.ext hval.symm)

end Sys2Proof.Machine
end

section

/-! PROOFS. The invariant of spec/10_state.md R31: an instruction, a step and every transaction keep it, so every reachable
state has it. -/

namespace Sys2Proof.Machine

/-! ### The invariant -/

/-- What `State.Legal` says of the state a program sees. The other two fields, the opcode latch and the waiting byte, are in
use while a cycle runs (R27, R56). -/
def State.Sound (s : State) : Prop :=
  s.pc.toNat ≤ 0x10FE ∧
  (∀ k : Fin 16, s.stack[k].toNat ≤ 0x1000) ∧
  (s.faulted = false → s.faultCause = 0) ∧
  (s.faulted = true → 1 ≤ s.faultCause.toNat ∧ s.faultCause.toNat ≤ 7) ∧
  Memory.WF s.config.font s.mem

theorem State.legal_iff (s : State) : s.Legal ↔ s.Sound ∧ s.opcode = 0 ∧ s.randIn = none := by
  simp only [State.Legal, State.Sound, and_assoc]

section

variable {s t : State}

/-- The state keeps soundness where only fields it does not speak of change. -/
theorem State.Sound.of_same (hs : s.Sound) (hpc : t.pc = s.pc) (hstack : t.stack = s.stack)
    (hfaulted : t.faulted = s.faulted) (hcause : t.faultCause = s.faultCause) (hconfig : t.config = s.config)
    (hmem : t.mem = s.mem) : t.Sound := by
  simpa only [State.Sound, hpc, hstack, hfaulted, hcause, hconfig, hmem] using hs

theorem State.Sound.setPc (hs : s.Sound) {w : Word} (hw : w.toNat ≤ 0x10FE) : (s.setPc w).Sound :=
  ⟨hw, hs.2⟩

theorem State.Sound.takeFault (hs : s.Sound) (r : FaultRaise) {pc : Word} (op : Word) (hpc : pc.toNat ≤ 0x10FE) :
    (s.takeFault r pc op).Sound := by
  obtain ⟨-, hstack, -, -, hmem⟩ := hs
  exact ⟨hpc, hstack, nofun, fun _ => r.cause.code_range, hmem⟩

theorem State.Sound.storeBytes (hs : s.Sound) {a : Nat} {bytes : List Byte} (ha : a + bytes.length ≤ 0x1000) :
    (s.storeBytes a bytes).Sound := by
  obtain ⟨hpc, hstack, hnone, hsome, hmem⟩ := hs
  exact ⟨hpc, hstack, hnone, hsome, Memory.writeBytes_wf bytes a ha hmem⟩

/-- A pushed return address stays in the bound of a slot. -/
theorem State.Sound.push (hs : s.Sound) {w : Word} (hw : w.toNat ≤ 0x1000) (h : s.sp.val ≠ 16) : (s.push w h).Sound := by
  obtain ⟨hpc, hstack, hrest⟩ := hs
  refine ⟨hpc, fun k => ?_, hrest⟩
  simp only [State.push_stack, Fin.getElem_fin, Vector.getElem_set]
  split
  · exact hw
  · exact hstack k

/-- A popped PC is in the bound of a slot. -/
theorem State.Sound.popPc (hs : s.Sound) (h : s.sp.val ≠ 0) : (s.popPc h).Sound := by
  obtain ⟨-, hstack, hrest⟩ := hs
  have hslot := hstack ⟨s.sp.val - 1, by omega⟩
  exact ⟨le_trans hslot (by decide), hstack, hrest⟩

/-! ### An instruction keeps it -/

/-- A skip, where PC is at most 0x1000, stays in the bound. -/
theorem State.Sound.skipIf (hs : s.Sound) (hpc : s.pc.toNat ≤ 0x1000) (c : Bool) : (s.skipIf c).Sound := by
  refine ⟨?_, hs.2⟩
  rw [State.skipIf_pc]
  split
  · rw [BitVec.toNat_add]; simp; omega
  · omega

/-- An instruction that completes. While it runs PC is its address plus 2 (R58): at least 2, which LD Vx, K takes back, and
at most 0x1000, which CALL pushes. -/
theorem State.Sound.of_completes {i : Instr} (hs : s.Sound) (hlow : 2 ≤ s.pc.toNat) (hhigh : s.pc.toNat ≤ 0x1000)
    (h : Completes i s t) : t.Sound := by
  have hback : (s.pc - 2).toNat ≤ 0x10FE := by bv_omega
  cases i with
  | sys nnn => exact h ▸ hs
  | ret => obtain ⟨hsp, rfl⟩ := h; exact hs.popPc hsp
  | call nnn =>
    obtain ⟨hsp, rfl⟩ := h
    exact (hs.push hhigh hsp).setPc (by rw [zextAddr_toNat]; omega)
  | jp _ | jpV0 _ => obtain ⟨w, hw, rfl⟩ := h; exact hs.setPc hw
  | seImm _ _ | sneImm _ _ | seReg _ _ | sneReg _ _ | skp _ | sknp _ => obtain ⟨c, rfl⟩ := h; exact hs.skipIf hhigh c
  | ldVxKey x =>
    obtain ⟨b, rfl⟩ | rfl := h
    · exact hs
    · exact hs.setPc hback
  | ldB _ | storeRegs _ => obtain ⟨bytes, -, ha, rfl⟩ := h; exact hs.storeBytes ha
  | addReg x _ | subReg x _ | subn x _ | shr x _ | shl x _ =>
    obtain ⟨rf, -, rfl⟩ := h
    apply hs.of_same <;> simp
  | drw _ _ _ => obtain ⟨fb, c, rfl⟩ := h; exact hs
  | cls | ldImm _ _ | addImm _ _ | ldReg _ _ | orReg _ _ | andReg _ _ | xorReg _ _ | ldVxDt _ | rnd _ _ | ldDtVx _
  | ldStVx _ | ldI _ | addI _ | ldF _ | loadRegs _ => obtain ⟨a, rfl⟩ := h; exact hs

theorem State.Sound.of_exec {i : Instr} (hs : s.Sound) (hlow : 2 ≤ s.pc.toNat) (hhigh : s.pc.toNat ≤ 0x1000)
    (h : exec i s = .next t) : t.Sound := by
  rcases exec_cases h with ⟨-, hc⟩ | ⟨r, -, rfl⟩
  · exact hs.of_completes hlow hhigh hc
  · exact hs.takeFault r s.opcode (by bv_omega)

/-! ### A step keeps it -/

theorem State.Sound.beginCycle (hs : s.Sound) (hpc : s.pc.toNat ≤ 0xFFE) (op : Word) : (s.beginCycle op).Sound :=
  ⟨by rw [State.beginCycle_pc]; bv_omega, hs.2⟩

theorem State.Sound.setRandIn (hs : s.Sound) {o : Option Byte} : (s.setRandIn o).Sound := hs

theorem State.Sound.endCycle (hs : s.Sound) : s.endCycle.Sound := hs

theorem State.Sound.of_step (hs : s.Sound) (h : step s = .next t) : t.Sound := by
  rcases step_cases h with ⟨-, rfl⟩ | ⟨-, -, rfl⟩ | ⟨-, hpc, op, u, -, -, hu, rfl⟩
  · exact hs
  · exact (hs.takeFault _ 0 hs.1).endCycle
  · have hbegin := hs.beginCycle hpc op
    have hlow : 2 ≤ (s.beginCycle op).pc.toNat := by rw [State.beginCycle_pc]; bv_omega
    have hhigh : (s.beginCycle op).pc.toNat ≤ 0x1000 := by rw [State.beginCycle_pc]; bv_omega
    cases hd : decode s.config.subDecode op with
    | unmatched => rw [hd] at hu; cases hu; exact hbegin.endCycle
    | instr i => rw [hd] at hu; exact (hbegin.of_exec hlow hhigh hu).endCycle

end

/-! ### The invariant between transactions -/

/-- Settles O53: soundness through the cycle, then the two fields that are in use while it runs. -/
theorem stepKeepsLegal : Obligations.StepKeepsLegal := by
  intro s t hs h
  obtain ⟨hsound, hopcode, hrand⟩ := s.legal_iff.mp hs
  exact t.legal_iff.mpr ⟨hsound.of_step h, step_opcode h hopcode, step_randIn_none h hrand⟩

theorem State.resetWith_legal (c : Config) : (State.resetWith c).Legal := by
  refine ⟨Nat.le_of_ble_eq_true rfl, fun k => ?_, fun _ => rfl, nofun, ⟨.nil, nofun⟩, rfl, rfl⟩
  simp [State.resetWith]

/-- Settles O54: `State.reset` is one of the reset states. -/
theorem resetIsLegal : Obligations.ResetIsLegal := ⟨State.resetWith_legal _, State.resetWith_legal⟩

/-- Settles O55: a cycle starts with its byte waiting, so it keeps soundness and ends with none waiting. -/
theorem transactionsKeepLegal : Obligations.TransactionsKeepLegal := by
  intro tr s u r hs h
  obtain ⟨hsound, hopcode, hrand⟩ := s.legal_iff.mp hs
  cases tr with
  | reset => cases h; exact State.resetWith_legal s.config
  | loadRom bytes =>
    obtain rfl | ⟨hlen, rfl⟩ := transact_loadRom h
    · exact hs
    · exact (s.storeBytes _ _).legal_iff.mpr ⟨hsound.storeBytes hlen, hopcode, hrand⟩
  | cycle rand =>
    obtain ⟨v, hv, rfl⟩ := transact_cycle h
    have hv_sound : v.Sound := hsound.setRandIn.of_step hv
    have hv_opcode : v.opcode = 0 := step_opcode (s := s.setRandIn _) hv hopcode
    exact v.dropRand.legal_iff.mpr ⟨hv_sound, hv_opcode, rfl⟩
  | tick | keyWrite _ _ | fbRead | statusRead => cases h; exact hs

/-! ### Reachable states -/

theorem transactAll_cons {tr : Transaction} {trs : List Transaction} {s t : State} {rs : List Reply}
    (h : transactAll (tr :: trs) s = .next (rs, t)) :
    ∃ r u rs', transact tr s = .next (r, u) ∧ transactAll trs u = .next (rs', t) := by
  simp only [transactAll] at h
  split at h
  case h_1 r u hr =>
    split at h <;> cases h
    case h_1 rs' hrs => exact ⟨r, u, rs', hr, hrs⟩
  all_goals cases h

theorem transactAll_legal {trs : List Transaction} {s t : State} {rs : List Reply} (hs : s.Legal)
    (h : transactAll trs s = .next (rs, t)) : t.Legal := by
  induction trs generalizing s rs with
  | nil => cases h; exact hs
  | cons tr trs ih =>
    obtain ⟨r, u, rs', hr, hrs⟩ := transactAll_cons h
    exact ih (transactionsKeepLegal tr s u r hs hr) hrs

theorem State.Reachable.legal {s : State} (h : s.Reachable) : s.Legal := by
  obtain ⟨c, trs, rs, hrun⟩ := h
  exact transactAll_legal (State.resetWith_legal c) hrun

/-- A word of the framebuffer is a pixel's (R22). -/
theorem mem_fbRead {s : State} {w : PixelWord} (h : w ∈ fbRead s) : w = 0x00000000#32 ∨ w = 0xFFFFFFFF#32 := by
  simp only [fbRead, FrameBuffer.words, List.mem_flatMap, List.mem_map] at h
  obtain ⟨row, -, on, -, rfl⟩ := h
  cases on
  · exact .inl rfl
  · exact .inr rfl

/-- Settles O56: the invariant with the bounds that the types of SP and of the framebuffer give. -/
theorem reachableStatesSatisfyTheInvariants : Obligations.ReachableStatesSatisfyTheInvariants := by
  intro s hs
  obtain ⟨hpc, -, hnone, hsome, -⟩ := hs.legal
  exact ⟨Nat.lt_succ_iff.mp s.sp.isLt, fun w hw => mem_fbRead hw, hpc, fun hf => by rw [hnone hf]; rfl, hsome⟩

end Sys2Proof.Machine
end

section

/-! PROOFS. A memory in canonical form is its bytes (spec/10_state.md R28, spec/20_memory.md R33). -/

namespace Sys2Proof.Machine

section

variable {font : FontTable} {m n : Memory}

theorem Memory.WF.head_lt {cell : Host.Cell} (hm : Memory.WF font (cell :: m)) : cell.1 < 0x1000 :=
  (hm.2 cell (by simp)).1

/-- A canonical memory reads as its first cell there, and no other memory that lists only higher addresses does. -/
theorem Memory.WF.read_head_ne {cell : Host.Cell} (hm : Memory.WF font (cell :: m)) (hn : ∀ c ∈ n, cell.1 < c.1) :
    Memory.read font (cell :: m) cell.1 ≠ Memory.read font n cell.1 := by
  obtain ⟨-, hcell⟩ := hm.2 cell (by simp)
  rw [Memory.read_of_lt cell.1 hn]
  simpa [Memory.read] using hcell

theorem Memory.WF.tail {cell : Host.Cell} (hm : Memory.WF font (cell :: m)) :
    (∀ c ∈ m, cell.1 < c.1) ∧ Memory.WF font m := by
  obtain ⟨hsorted, hcells⟩ := hm
  obtain ⟨hhead, htail⟩ := List.pairwise_cons.mp hsorted
  exact ⟨hhead, htail, fun c hc => hcells c (List.mem_cons_of_mem _ hc)⟩

/-- Of two canonical memories that read alike, neither starts below the other. -/
theorem Memory.WF.head_le {c d : Host.Cell} (hm : Memory.WF font (c :: m)) (hn : Memory.WF font (d :: n))
    (h : ∀ a < 0x1000, Memory.read font (c :: m) a = Memory.read font (d :: n) a) : d.1 ≤ c.1 := by
  by_contra! hlt
  refine hm.read_head_ne (n := d :: n) (fun e he => ?_) (h c.1 hm.head_lt)
  rcases List.mem_cons.mp he with rfl | he
  · exact hlt
  · exact hlt.trans (hn.tail.1 e he)

/-- Two canonical memories that read alike list the same cells: the first cells agree, and what follows reads alike. -/
theorem Memory.eq_of_read_eq (hm : Memory.WF font m) (hn : Memory.WF font n)
    (h : ∀ a < 0x1000, Memory.read font m a = Memory.read font n a) : m = n := by
  induction m generalizing n with
  | nil =>
    cases n with
    | nil => rfl
    | cons d n => exact absurd (h d.1 hn.head_lt).symm (hn.read_head_ne nofun)
  | cons c m ih =>
    cases n with
    | nil => exact absurd (h c.1 hm.head_lt) (hm.read_head_ne nofun)
    | cons d n =>
      obtain ⟨a, b⟩ := c
      obtain ⟨a', b'⟩ := d
      obtain rfl : a = a' := le_antisymm (hn.head_le hm fun e he => (h e he).symm) (hm.head_le hn h)
      obtain rfl : b = b' := by simpa [Memory.read] using h a hm.head_lt
      have htail : ∀ e < 0x1000, Memory.read font m e = Memory.read font n e := by
        intro e he
        by_cases hea : e = a
        · subst hea
          rw [Memory.read_of_lt e hm.tail.1, Memory.read_of_lt e hn.tail.1]
        · simpa [Memory.read, hea] using h e he
      rw [ih hm.tail.2 hn.tail.2 htail]

end

/-- Settles O57: cell by cell from the lowest address. -/
theorem canonicalMemoryIsItsBytes : Obligations.CanonicalMemoryIsItsBytes := fun _ _ _ hm hn h =>
  Memory.eq_of_read_eq hm hn h

end Sys2Proof.Machine
end

section

/-! PROOFS. Memory (spec/20_memory.md): which bytes an instruction leaves as they were (R34, R40, R43), and that a fetch
reads the bytes last stored (R41, R51). -/

namespace Sys2Proof.Machine

section

variable {s t : State}

/-! ### The bytes an instruction stores -/

/-- A completed instruction that stores no byte leaves memory as it reads: its update names other fields. -/
theorem readByte_of_completes_no_store {i : Instr} (h : Completes i s t) (hi : storedBytes i = 0) (a : Nat) :
    t.readByte a = s.readByte a := by
  cases i with
  | ldB _ | storeRegs _ => cases hi
  | sys _ => subst h; rfl
  | ldVxKey _ => obtain ⟨_, rfl⟩ | rfl := h <;> rfl
  | jp _ | jpV0 _ => obtain ⟨_, -, rfl⟩ := h; rfl
  | addReg _ _ | subReg _ _ | subn _ _ | shr _ _ | shl _ _ =>
    obtain ⟨_, -, rfl⟩ := h
    exact State.readByte_congr (State.writeRF_config ..) (State.writeRF_mem ..) a
  | drw _ _ _ => obtain ⟨_, _, rfl⟩ := h; rfl
  | cls | ret | call _ | seImm _ _ | sneImm _ _ | seReg _ _ | sneReg _ _ | skp _ | sknp _ | ldImm _ _ | addImm _ _
  | ldReg _ _ | orReg _ _ | andReg _ _ | xorReg _ _ | ldVxDt _ | rnd _ _ | ldDtVx _ | ldStVx _ | ldI _ | addI _ | ldF _
  | loadRegs _ => obtain ⟨_, rfl⟩ := h; rfl

/-- A completed instruction leaves every byte outside those it stores. -/
theorem readByte_of_completes {i : Instr} (h : Completes i s t) {a : Nat}
    (ha : storedBytes i = 0 ∨ a < s.indexAddr 0 ∨ s.indexAddr 0 + storedBytes i ≤ a) :
    t.readByte a = s.readByte a := by
  obtain hi | hout := ha
  · exact readByte_of_completes_no_store h hi a
  · cases i with
    | ldB _ | storeRegs _ =>
      obtain ⟨bytes, hlen, -, rfl⟩ := h
      exact s.readByte_storeBytes_other bytes _ a (hlen ▸ hout)
    | _ => exact readByte_of_completes_no_store h rfl a

/-! ### The registers stored through I -/

theorem State.regsUpTo_getElem (s : State) (x k : Reg) (hk : k.val < (s.regsUpTo x).length) :
    (s.regsUpTo x)[k.val] = s.v[k] := by
  simp [State.regsUpTo]

/-- Fx55 in range stores (R99). -/
theorem exec_storeRegs_of_le {x : Reg} (hx : s.index.toNat + x.val ≤ 0xFFF) :
    exec (.storeRegs x) s = .next (s.storeBytes s.index.toNat (s.regsUpTo x)) := by
  rcases memWrite_cases s (s.indexAddr 0) (s.regsUpTo x) with ⟨-, hw⟩ | ⟨hrange, -⟩
  · rw [exec, execStoreRegs, hw, orRaise_ok, State.indexAddr_zero]
  · rw [State.indexAddr_zero, State.regsUpTo_length] at hrange; omega

/-- A register that Fx55 stored is at its offset from I (R99). -/
theorem readByte_storeBytes_regsUpTo {x k : Reg} (hm : Memory.WF s.config.font s.mem) (hk : k ≤ x) :
    (s.storeBytes s.index.toNat (s.regsUpTo x)).readByte (s.index.toNat + k.val) = s.v[k] := by
  have hlen : k.val < (s.regsUpTo x).length := by rw [State.regsUpTo_length]; exact Nat.lt_succ_of_le hk
  rw [s.readByte_storeBytes_same _ _ _ hlen hm, State.regsUpTo_getElem]

end

/-- Settles O41: a fault leaves memory alone, and a completed instruction every byte outside those it stores. -/
theorem memoryFrame : Obligations.MemoryFrame := by
  intro i s t a h ha
  rcases exec_cases h with ⟨-, hc⟩ | ⟨r, -, rfl⟩
  · exact readByte_of_completes hc ha
  · exact State.readByte_raise s r a

/-! ### The word a fetch reads -/

theorem joinBytes_eq_ofNat (h l : Byte) : joinBytes h l = BitVec.ofNat 16 (h.toNat * 256 + l.toNat) := by
  rw [← joinBytes_toNat, BitVec.ofNat_toNat, BitVec.setWidth_eq]

/-- A fetch in range reads the two bytes at PC (R57). -/
theorem fetch_of_le {s : State} (h : s.pc.toNat ≤ 0xFFE) :
    fetch s = .ok (joinBytes (s.readByte s.pc.toNat) (s.readByte (s.pc.toNat + 1))) := by
  rcases fetch_cases s with ⟨-, hf⟩ | ⟨hpc, -⟩
  · exact hf
  · omega

/-- Settles O29: the fetch at I is in range, and its two bytes are the stored V0 and V1. -/
theorem storedBytesAreFetched : Obligations.StoredBytesAreFetched := by
  intro s x hm hx hrange
  have hV0 : (s.storeBytes s.index.toNat (s.regsUpTo x)).readByte s.index.toNat = s.v[0] :=
    readByte_storeBytes_regsUpTo (k := 0) hm (Fin.zero_le x)
  have hV1 : (s.storeBytes s.index.toNat (s.regsUpTo x)).readByte (s.index.toNat + 1) = s.v[1] :=
    readByte_storeBytes_regsUpTo (k := 1) hm hx
  refine ⟨_, exec_storeRegs_of_le hrange, ?_⟩
  have hpc : s.index.toNat ≤ 0xFFE := by omega
  rw [fetch_of_le hpc, ← joinBytes_eq_ofNat, ← hV0, ← hV1]
  rfl

end Sys2Proof.Machine
end

section

/-! PROOFS. Decoder and encoder (spec/30_encoding.md R54, R59 to R63, R65): the fields of a word as numbers and the word
back from its fields, then what the decoder does with a word of each group, and the statements about words. -/

namespace Sys2Proof

/-! ### A word and its fields -/

section

variable {w : Word}

theorem opN_eq_iff (n : BitVec 4) : opN w = n ↔ w.toNat % 16 = n.toNat := by
  rw [← BitVec.toNat_inj, opN_toNat]

theorem opKK_eq_iff (kk : Byte) : opKK w = kk ↔ w.toNat % 256 = kk.toNat := by
  rw [← BitVec.toNat_inj, opKK_toNat]

theorem opNNN_eq_ofNat (w : Word) : opNNN w = BitVec.ofNat 12 w.toNat := by
  apply BitVec.eq_of_toNat_eq
  rw [opNNN_toNat, BitVec.toNat_ofNat]

theorem opX_eq_ofNat (w : Word) : opX w = Fin.ofNat 16 (w.toNat / 256) := Fin.ext (opX_val w)

/-! A word is packed from its own fields (R54). -/

theorem packNNN_fields {o : BitVec 4} (ho : (opO w).toNat = o.toNat) : packNNN o (opNNN w) = w := by
  apply BitVec.eq_of_toNat_eq
  rw [opO_toNat] at ho
  rw [packNNN_toNat, opNNN_toNat]; omega

theorem packXKK_fields {o : BitVec 4} {kk : Byte} (ho : (opO w).toNat = o.toNat) (hkk : (opKK w).toNat = kk.toNat) :
    packXKK o (opX w) kk = w := by
  apply BitVec.eq_of_toNat_eq
  rw [opO_toNat] at ho
  rw [opKK_toNat] at hkk
  rw [packXKK_toNat, opX_val]; omega

theorem packXYN_fields {o n : BitVec 4} (ho : (opO w).toNat = o.toNat) (hn : (opN w).toNat = n.toNat) :
    packXYN o (opX w) (opY w) n = w := by
  apply BitVec.eq_of_toNat_eq
  rw [opO_toNat] at ho
  rw [opN_toNat] at hn
  rw [packXYN_toNat, opX_val, opY_val]; omega

/-- With the low nibble left out, the word with that nibble cleared (R59). -/
theorem packXYN_zero_toNat {o : BitVec 4} (ho : (opO w).toNat = o.toNat) :
    (packXYN o (opX w) (opY w) 0x0).toNat = w.toNat / 16 * 16 := by
  rw [opO_toNat] at ho
  rw [packXYN_toNat, opX_val, opY_val]; simp; omega

/-! ### A word and its instruction -/

variable {sub : SubDecode} {i : Instr}

/-- The word stands for the instruction: an instruction of the machine, whose encoding is the word but for the bits the
decoder does not look at (R59, R60). `readFrom_of_decode` ties it to the decoder. -/
def ReadFrom (sub : SubDecode) (w : Word) (i : Instr) : Prop :=
  i.wellFormed sub = true ∧
  ((opO w).toNat ∉ [0x0, 0x5, 0x9, 0xE] → encode i = w) ∧
  ((opO w).toNat ∈ [0x5, 0x9] → (encode i).toNat = w.toNat / 16 * 16)

/-- Outside groups 5 and 9, an instruction whose encoding is the word. -/
theorem ReadFrom.of_encode (hwf : i.wellFormed sub = true) (ho : (opO w).toNat ∉ [0x5, 0x9]) (h : encode i = w) :
    ReadFrom sub w i :=
  ⟨hwf, fun _ => h, fun hg => absurd hg ho⟩

/-- In groups 5 and 9, an instruction whose encoding is the word with its low nibble cleared. -/
theorem ReadFrom.of_ignored_nibble (hwf : i.wellFormed sub = true) (ho : (opO w).toNat ∈ [0x5, 0x9])
    (h : (encode i).toNat = w.toNat / 16 * 16) : ReadFrom sub w i :=
  ⟨hwf, fun hg => by simp at ho hg; omega, fun _ => h⟩

/-- In groups 0 and E, where the decoder may look at the low byte or the low nibble only, any well-formed instruction. -/
theorem ReadFrom.of_subdecoded (hwf : i.wellFormed sub = true) (ho : (opO w).toNat ∈ [0x0, 0xE]) : ReadFrom sub w i :=
  ⟨hwf, fun hg => by simp at ho hg; omega, fun hg => by simp at ho hg; omega⟩

/-! ### The groups that are decoded further (R60, R61, R62) -/

theorem decode_group0 (h : (opO w).toNat = 0x0) : decode sub w = decodeGroup0 sub w := by simp only [decode, h]

theorem decode_groupE (h : (opO w).toNat = 0xE) : decode sub w = decodeGroupE sub w := by simp only [decode, h]

/-- Everything group 0 can answer (R60). -/
theorem decodeGroup0_cases (sub : SubDecode) (w : Word) :
    decodeGroup0 sub w = .instr .cls ∨ decodeGroup0 sub w = .instr .ret ∨
    decodeGroup0 sub w = .instr (.sys (opNNN w)) := by
  unfold decodeGroup0
  cases sub <;> dsimp only <;> split_ifs <;> simp

@[simp] theorem extractLsb'_eight_opNNN (w : Word) : (opNNN w).extractLsb' 0 8 = opKK w := by
  apply BitVec.eq_of_toNat_eq
  rw [BitVec.extractLsb'_toNat, opNNN_toNat, opKK_toNat]; simp

@[simp] theorem extractLsb'_four_opNNN (w : Word) : (opNNN w).extractLsb' 0 4 = opN w := by
  apply BitVec.eq_of_toNat_eq
  rw [BitVec.extractLsb'_toNat, opNNN_toNat, opN_toNat]; simp

/-- SYS is left the words that are neither CLS nor RET (R60, R71). -/
theorem decodeGroup0_eq_sys {nnn : Addr12} (h : opNNN w = nnn) :
    decodeGroup0 sub w = .instr (.sys nnn) ↔ (Instr.sys nnn).wellFormed sub = true := by
  subst h
  cases sub <;> simp only [decodeGroup0, Instr.wellFormed, sysOperandOk] <;> split_ifs <;> simp_all

theorem decodeGroup8_eq_unmatched :
    decodeGroup8 w = .unmatched ↔ w.toNat % 16 ∈ [0x8, 0x9, 0xA, 0xB, 0xC, 0xD, 0xF] := by
  rw [← opN_toNat]
  have := (opN w).isLt
  unfold decodeGroup8
  split
  case h_10 => simp only [imp_false] at *; simp; omega
  all_goals simp [*]

theorem decodeGroupE_lowByte_eq_unmatched : decodeGroupE .lowByte w = .unmatched ↔ w.toNat % 256 ∉ [0x9E, 0xA1] := by
  simp only [decodeGroupE, opKK_eq_iff]
  split_ifs <;> simp_all

theorem decodeGroupE_lowNibble_eq_unmatched : decodeGroupE .lowNibble w = .unmatched ↔ w.toNat % 16 ∉ [0xE, 0x1] := by
  simp only [decodeGroupE, opN_eq_iff]
  split_ifs <;> simp_all

theorem decodeGroupF_eq_unmatched :
    decodeGroupF w = .unmatched ↔ w.toNat % 256 ∉ [0x07, 0x0A, 0x15, 0x18, 0x1E, 0x29, 0x33, 0x55, 0x65] := by
  rw [← opKK_toNat]
  unfold decodeGroupF
  split
  case h_10 => simp_all
  all_goals simp [*]

theorem readFrom_of_decodeGroup0 (ho : (opO w).toNat = 0x0) (h : decodeGroup0 sub w = .instr i) : ReadFrom sub w i := by
  refine .of_subdecoded ?_ (by simp [ho])
  rcases decodeGroup0_cases sub w with hw | hw | hw <;> obtain rfl := Handler.instr.inj (hw.symm.trans h)
  · rfl
  · rfl
  · exact (decodeGroup0_eq_sys rfl).mp hw

theorem readFrom_of_decodeGroup8 (ho : (opO w).toNat = 0x8) (h : decodeGroup8 w = .instr i) : ReadFrom sub w i := by
  unfold decodeGroup8 at h
  split at h <;> cases h
  all_goals exact .of_encode rfl (by simp [ho]) (packXYN_fields ho ‹_›)

theorem readFrom_of_decodeGroupE (ho : (opO w).toNat = 0xE) (h : decodeGroupE sub w = .instr i) : ReadFrom sub w i := by
  refine .of_subdecoded ?_ (by simp [ho])
  unfold decodeGroupE at h
  cases sub <;> dsimp only at h <;> split_ifs at h <;> cases h <;> rfl

theorem readFrom_of_decodeGroupF (ho : (opO w).toNat = 0xF) (h : decodeGroupF w = .instr i) : ReadFrom sub w i := by
  unfold decodeGroupF at h
  split at h <;> cases h
  all_goals exact .of_encode rfl (by simp [ho]) (packXKK_fields ho ‹_›)

/-! ### Every group -/

/-- Everything the decoder does: it decodes groups 0, 8, E and F further, and a word of another group is an instruction. -/
theorem decode_cases (sub : SubDecode) (w : Word) :
    ((opO w).toNat = 0x0 ∧ decode sub w = decodeGroup0 sub w) ∨
    ((opO w).toNat = 0x8 ∧ decode sub w = decodeGroup8 w) ∨
    ((opO w).toNat = 0xE ∧ decode sub w = decodeGroupE sub w) ∨
    ((opO w).toNat = 0xF ∧ decode sub w = decodeGroupF w) ∨
    ((opO w).toNat ∉ [0x0, 0x8, 0xE, 0xF] ∧ ∃ i, decode sub w = .instr i ∧ ReadFrom sub w i) := by
  have hlt := (opO w).isLt
  unfold decode
  split
  case h_1 => exact .inl ⟨‹_›, rfl⟩
  case h_9 => exact .inr (.inl ⟨‹_›, rfl⟩)
  case h_15 => exact .inr (.inr (.inl ⟨‹_›, rfl⟩))
  case h_16 =>
    refine .inr (.inr (.inr (.inl ⟨?_, rfl⟩)))
    simp only [imp_false] at *; omega
  -- The other groups: the instruction is read off the word's fields, and the word is packed from them.
  all_goals
    rename_i ho
    refine .inr (.inr (.inr (.inr ⟨by simp [ho], _, rfl, ?_⟩)))
  case h_2 | h_3 | h_11 | h_12 => exact .of_encode rfl (by simp [ho]) (packNNN_fields ho)
  case h_4 | h_5 | h_7 | h_8 | h_13 => exact .of_encode rfl (by simp [ho]) (packXKK_fields ho rfl)
  case h_14 => exact .of_encode rfl (by simp [ho]) (packXYN_fields ho rfl)
  case h_6 | h_10 => exact .of_ignored_nibble rfl (by simp [ho]) (packXYN_zero_toNat ho)

/-- A decoded instruction is one its word stands for, by the group's own lemma. -/
theorem readFrom_of_decode (h : decode sub w = .instr i) : ReadFrom sub w i := by
  rcases decode_cases sub w with ⟨ho, hd⟩ | ⟨ho, hd⟩ | ⟨ho, hd⟩ | ⟨ho, hd⟩ | ⟨-, j, hd, hj⟩ <;> rw [hd] at h
  · exact readFrom_of_decodeGroup0 ho h
  · exact readFrom_of_decodeGroup8 ho h
  · exact readFrom_of_decodeGroupE ho h
  · exact readFrom_of_decodeGroupF ho h
  · exact Handler.instr.inj h ▸ hj

end

/-! ### The statements about words -/

/-- Decoding the encoding: SYS by what group 0 leaves it, the others by the fields of their packed words. -/
theorem decode_encode {sub : SubDecode} {i : Instr} (h : i.wellFormed sub = true) : decode sub (encode i) = .instr i := by
  cases i with
  | sys nnn =>
    have hgroup : decode sub (encode (.sys nnn)) = decodeGroup0 sub (encode (.sys nnn)) := decode_group0 (by simp [encode])
    exact hgroup.trans ((decodeGroup0_eq_sys (opNNN_packNNN 0x0 nnn)).mpr h)
  | cls | ret => cases sub <;> rfl
  | jp _ | call _ | ldI _ | jpV0 _ | seImm _ _ | sneImm _ _ | ldImm _ _ | addImm _ _ | rnd _ _ | seReg _ _ | sneReg _ _
  | drw _ _ _ => simp [encode, decode]
  | ldReg _ _ | orReg _ _ | andReg _ _ | xorReg _ _ | addReg _ _ | subReg _ _ | shr _ _ | subn _ _ | shl _ _ =>
    simp [encode, decode, decodeGroup8]
  | skp _ | sknp _ => cases sub <;> simp [encode, decode, decodeGroupE]
  | ldVxDt _ | ldVxKey _ | ldDtVx _ | ldStVx _ | addI _ | ldF _ | ldB _ | storeRegs _ | loadRegs _ =>
    simp [encode, decode, decodeGroupF]

/-- Settles O1: `decode_encode`. -/
theorem decodeOfEncodeGivesTheInstruction : Obligations.DecodeOfEncodeGivesTheInstruction :=
  fun _ _ h => decode_encode h

/-- Settles O2: `readFrom_of_decode`, with the leading nibble as a number. -/
theorem decodedInstructionIsWellFormedAndReencodes : Obligations.DecodedInstructionIsWellFormedAndReencodes := by
  intro sub w i h
  simpa only [ReadFrom, opO_toNat] using readFrom_of_decode h

/-- Settles O3: the low byte, the low nibble and the operands as numbers. -/
theorem groupsZeroAndEFollowSubdecode : Obligations.GroupsZeroAndEFollowSubdecode := by
  intro w
  simp only [← opO_toNat]
  refine ⟨fun ho => ?_, fun ho => ?_⟩
  · simp only [decode_group0 ho, decodeGroup0, opKK_eq_iff, opN_eq_iff, opNNN_eq_ofNat, apply_ite Handler.instr]
    exact ⟨rfl, rfl⟩
  · simp only [decode_groupE ho, decodeGroupE, opKK_eq_iff, opN_eq_iff, opX_eq_ofNat]
    exact ⟨rfl, rfl⟩

end Sys2Proof
end

section

/-! PROOFS. The cycle (spec/30_encoding.md R56 to R58, R63, R70): every instruction, step and transaction ends in a next
state, the word a fetch reads as a number, and the cycle of an unmatched word and of an instruction. -/

namespace Sys2Proof.Machine

/-! ### Every instruction, step and transaction ends in a next state (R70) -/

section

variable (s : State)

theorem orRaise_completes {α : Type} (e : Except FaultRaise α) (k : α → State) : ∃ t, orRaise s e k = .next t := by
  cases e with
  | ok a => exact ⟨_, orRaise_ok s a k⟩
  | error r => exact ⟨_, orRaise_error s r k⟩

theorem exec_completes (i : Instr) : ∃ t, exec i s = .next t := by
  cases i with
  | ret => simp only [exec, execRet]; split <;> exact ⟨_, rfl⟩
  | call nnn => simp only [exec, execCall]; split <;> exact ⟨_, rfl⟩
  | sneReg x y => simp only [exec, execSneReg]; split <;> exact ⟨_, rfl⟩
  | ldVxKey x => simp only [exec, execLdVxKey]; split <;> exact ⟨_, rfl⟩
  | drw _ _ _ | skp _ | sknp _ | addI _ | ldB _ | storeRegs _ | loadRegs _ => exact orRaise_completes s _ _
  | cls | sys _ | jp _ | seImm _ _ | sneImm _ _ | seReg _ _ | ldImm _ _ | addImm _ _ | ldReg _ _ | orReg _ _ | andReg _ _
  | xorReg _ _ | addReg _ _ | subReg _ _ | shr _ _ | subn _ _ | shl _ _ | ldI _ | jpV0 _ | rnd _ _ | ldVxDt _ | ldDtVx _
  | ldStVx _ | ldF _ => exact ⟨_, rfl⟩

theorem execHandler_completes (hd : Handler) : ∃ t, execHandler hd s = .next t := by
  cases hd with
  | instr i => exact exec_completes s i
  | unmatched => exact ⟨s, rfl⟩

theorem step_completes : ∃ t, step s = .next t := by
  cases hf : s.faulted with
  | true => exact ⟨s, step_of_faulted hf⟩
  | false =>
    cases hfetch : fetch s with
    | error r => exact ⟨_, step_of_fetch_error hf hfetch⟩
    | ok op =>
      obtain ⟨t, ht⟩ := execHandler_completes (s.beginCycle op) (decode s.config.subDecode op)
      exact ⟨t.endCycle, by rw [step_of_fetch_ok hf hfetch, ht, endOf_next]⟩

theorem transact_completes (tr : Transaction) : ∃ p, transact tr s = .next p := by
  cases tr with
  | cycle rand =>
    obtain ⟨t, ht⟩ := step_completes (s.setRandIn (some rand))
    exact ⟨(.none, t.dropRand), by rw [transact, cycle_eq_mapNext, ht, mapNext_next]⟩
  | reset | loadRom _ | tick | keyWrite _ _ | fbRead | statusRead => exact ⟨_, rfl⟩

end

/-- Settles O8. -/
theorem everyHandlerStepAndTransactionCompletes : Obligations.EveryHandlerStepAndTransactionCompletes :=
  ⟨fun i s => exec_completes s i, step_completes, fun tr s => transact_completes s tr⟩

/-! ### The fetch and the handler of the fetched word -/

section

variable {s : State}

theorem fetch_eq_wordAtPc (h : s.pc.toNat ≤ 0xFFE) : fetch s = .ok (BitVec.ofNat 16 s.wordAtPc) := by
  rw [fetch_of_le h, joinBytes_eq_ofNat, State.wordAtPc]

/-- A fetch past the address space is FETCH_RANGE (R57). -/
theorem fetch_of_ge (h : s.pc.toNat ≥ 0xFFF) : fetch s = .error ⟨.fetchRange, rangeInfo s.pc.toNat⟩ := by
  rcases fetch_cases s with ⟨hpc, -⟩ | ⟨-, hf⟩
  · omega
  · exact hf

/-- A step from a fetchable PC runs the handler of the word at PC (R56). -/
theorem step_eq_endOf_execHandler (hs : s.NoFault) (hpc : s.pc.toNat ≤ 0xFFE) {hd : Handler}
    (h : decode s.config.subDecode (BitVec.ofNat 16 s.wordAtPc) = hd) :
    step s = endOf (execHandler hd (s.beginCycle (BitVec.ofNat 16 s.wordAtPc))) := by
  rw [step_of_fetch_ok hs (fetch_eq_wordAtPc hpc), h]

end

/-- Settles O7: the fetch that reads a word, and the step whose fetch fails. -/
theorem fetchIsBigEndianAndRangeChecked : Obligations.FetchIsBigEndianAndRangeChecked := fun _ =>
  ⟨fetch_eq_wordAtPc, fun hpc hs => step_of_fetch_error hs (fetch_of_ge hpc)⟩

/-- Settles O4: the words by their groups, and the cycle by the handler that does nothing. -/
theorem unmatchedWordsAreNoOps : Obligations.UnmatchedWordsAreNoOps := by
  refine ⟨fun sub w => ?_, fun _ hs hpc h => step_eq_endOf_execHandler hs hpc h⟩
  rw [← opO_toNat]
  rcases decode_cases sub w with ⟨ho, hd⟩ | ⟨ho, hd⟩ | ⟨ho, hd⟩ | ⟨ho, hd⟩ | ⟨ho, i, hd, -⟩ <;> rw [hd]
  · rcases decodeGroup0_cases sub w with h | h | h <;> simp [h, ho]
  · simp [decodeGroup8_eq_unmatched, ho]
  · cases sub
    · simp [decodeGroupE_lowByte_eq_unmatched, ho]
    · simp [decodeGroupE_lowNibble_eq_unmatched, ho]
  · simp [decodeGroupF_eq_unmatched, ho]
  · simp at ho; simp [ho]

/-- Settles O6: the sum does not overflow below 0xFFE, and the instruction completes. -/
theorem stepRunsTheDecodedInstruction : Obligations.StepRunsTheDecodedInstruction := by
  intro s i hs hpc h
  obtain ⟨t, ht⟩ := exec_completes (s.beginCycle (BitVec.ofNat 16 s.wordAtPc)) i
  refine ⟨by bv_omega, t, ht, ?_⟩
  rw [step_eq_endOf_execHandler hs hpc h, execHandler, ht, endOf_next]
  rfl

/-! ### Words written out from the opcode map (R65) -/

/-- The canonical word of an instruction runs it. -/
theorem runs_encode {i : Instr} (h : ∀ sub, i.wellFormed sub = true) : Runs (encode i) i := fun sub => decode_encode (h sub)

/-- Settles O5: seven words are canonical, and 5AB7 differs from 5AB0 in the nibble the decoder ignores. -/
theorem handSpelledWordsDecode : Obligations.HandSpelledWordsDecode :=
  ⟨runs_encode (i := .cls) fun _ => rfl, runs_encode (i := .jp 0x234) fun _ => rfl, fun _ => rfl,
    runs_encode (i := .shl 0xA 0xB) fun _ => rfl, runs_encode (i := .ldI 0x22A) fun _ => rfl,
    runs_encode (i := .drw 1 2 5) fun _ => rfl, runs_encode (i := .sknp 7) fun _ => rfl,
    runs_encode (i := .loadRegs 0xC) fun _ => rfl⟩

end Sys2Proof.Machine
end

section

/-! PROOFS. Control flow (spec/40_control_flow.md R71 to R79): the words of the opcode map as packed words, the call stack
under CALL and RET, and the skips; then the statements about each instruction. -/

namespace Sys2Proof.Machine

/-! ### The words of the opcode map are packed words (R54, R65) -/

section

variable (o : Nat) (x y : Reg)

theorem wordNNN_eq_packNNN (nnn : Addr12) : wordNNN o nnn = packNNN (BitVec.ofNat 4 o) nnn := by
  apply BitVec.eq_of_toNat_eq
  rw [packNNN_toNat, wordNNN, BitVec.toNat_ofNat, BitVec.toNat_ofNat]; omega

theorem wordXKK_eq_packXKK (kk : Byte) : wordXKK o x kk.toNat = packXKK (BitVec.ofNat 4 o) x kk := by
  apply BitVec.eq_of_toNat_eq
  rw [packXKK_toNat, wordXKK, BitVec.toNat_ofNat, BitVec.toNat_ofNat]; omega

theorem wordXYN_eq_packXYN (n : BitVec 4) : wordXYN o x y n.toNat = packXYN (BitVec.ofNat 4 o) x y n := by
  apply BitVec.eq_of_toNat_eq
  rw [packXYN_toNat, wordXYN, BitVec.toNat_ofNat, BitVec.toNat_ofNat]; omega

end

/-- A word that is an instruction's canonical word runs it. -/
theorem runs_of_eq_encode {w : Word} {i : Instr} (hw : w = encode i) (h : ∀ sub, i.wellFormed sub = true) : Runs w i :=
  hw ▸ runs_encode h

/-! Groups 5 and 9 run on every low nibble (R59). -/

theorem runs_seReg (x y : Reg) (n : BitVec 4) : Runs (wordXYN 0x5 x y n.toNat) (.seReg x y) := fun sub => by
  simp [wordXYN_eq_packXYN, decode]

theorem runs_sneReg (x y : Reg) (n : BitVec 4) : Runs (wordXYN 0x9 x y n.toNat) (.sneReg x y) := fun sub => by
  simp [wordXYN_eq_packXYN, decode]

/-! ### The call stack (R19, R72, R74) -/

section

variable {s : State}

/-- A handler's fault, its fields written out (R115). -/
theorem State.raise_eq_withFault {r : FaultRaise} (h : r.cause ≠ .fetchRange) :
    s.raise r = s.withFault r.cause.code r.info := by
  rw [State.raise, State.takeFault, if_neg h, State.withFault]

theorem exec_ret_of_empty (h : s.sp.val = 0) : exec .ret s = .next (s.withFault 3 0x0000) :=
  (dif_pos h).trans (congrArg Host.Outcome.next (State.raise_eq_withFault nofun))

theorem exec_ret_of_nonempty (h : s.sp.val ≠ 0) : exec .ret s = .next (s.popPc h) := dif_neg h

theorem exec_call_of_full {nnn : Addr12} (h : s.sp.val = 16) : exec (.call nnn) s = .next (s.withFault 2 (zextAddr nnn)) :=
  (dif_pos h).trans (congrArg Host.Outcome.next (State.raise_eq_withFault nofun))

theorem exec_call_of_free {nnn : Addr12} (h : s.sp.val ≠ 16) :
    exec (.call nnn) s = .next ((s.push s.pc h).setPc (zextAddr nnn)) := dif_neg h

/-- A slot after a push: the one at SP holds the word, the others what they held. -/
theorem State.push_stack_get (w : Word) (h : s.sp.val ≠ 16) (j : Fin 16) :
    (s.push w h).stack[j] = if s.sp.val = j.val then w else s.stack[j] := by
  simp only [State.push_stack, Fin.getElem_fin, Vector.getElem_set]

/-- What is pushed is what is popped, whatever PC is in between. -/
theorem State.popPc_setPc_push (w p : Word) (h : s.sp.val ≠ 16) (h' : ((s.push w h).setPc p).sp.val ≠ 0) :
    ((s.push w h).setPc p).popPc h' = { s with pc := w, stack := (s.push w h).stack } := by
  simp [State.popPc, State.setPc, State.push]

end

/-- Settles O13: the RET pops the slot that the CALL pushed. -/
theorem returnUndoesCall : Obligations.ReturnUndoesCall := by
  intro s nnn p hsp
  have hfree : s.sp.val ≠ 16 := by omega
  have hpop := State.popPc_setPc_push s.pc p hfree (Nat.succ_ne_zero _)
  refine ⟨_, _, exec_call_of_free hfree, exec_ret_of_nonempty (s := (s.push s.pc hfree).setPc p) (Nat.succ_ne_zero _), ?_⟩
  rw [hpop]
  exact ⟨rfl, rfl, rfl⟩

/-- Settles O10: the fault at SP = 0, and the pop. -/
theorem retPopsTheReturnAddress : Obligations.RetPopsTheReturnAddress := by
  refine ⟨runs_encode (i := .ret) fun _ => rfl, fun s => ⟨exec_ret_of_empty, fun k hk => ?_⟩⟩
  exact ⟨_, exec_ret_of_nonempty (by omega), by simp [hk], by simp [hk], rfl⟩

/-- Settles O12: the fault at SP = 16, and the push with the jump. -/
theorem callPushesTheReturnAddress : Obligations.CallPushesTheReturnAddress := by
  intro s nnn
  refine ⟨runs_of_eq_encode (wordNNN_eq_packNNN 0x2 nnn) fun _ => rfl, exec_call_of_full, fun k hk => ?_⟩
  have hfree : s.sp.val ≠ 16 := by omega
  refine ⟨_, exec_call_of_free hfree, ?_, fun j hj => ?_, ?_, zextAddr_toNat nnn, rfl⟩
  · exact (State.push_stack_get s.pc hfree k).trans (if_pos hk)
  · exact (State.push_stack_get s.pc hfree j).trans (if_neg fun h => hj (Fin.ext (h.symm.trans hk)))
  · simp [hk]

/-! ### SYS and the jumps (R71, R73, R79) -/

/-- Settles O9: the word is SYS's canonical word. -/
theorem sysDoesNothing : Obligations.SysDoesNothing := by
  intro sub nnn s h
  have hword : wordNNN 0x0 nnn = encode (.sys nnn) := wordNNN_eq_packNNN 0x0 nnn
  exact ⟨hword ▸ decode_encode h, rfl⟩

/-- Settles O11: both targets are exact as 16-bit words. -/
theorem jumpsSetPc : Obligations.JumpsSetPc := by
  intro s nnn
  have hsum : (zext16 s.v[0] + zextAddr nnn).toNat = s.v[0].toNat + nnn.toNat := zext16_add_zextAddr_toNat s.v[0] nnn
  refine ⟨⟨runs_of_eq_encode (wordNNN_eq_packNNN 0x1 nnn) fun _ => rfl, _, rfl, zextAddr_toNat nnn, rfl⟩,
    runs_of_eq_encode (wordNNN_eq_packNNN 0xB nnn) fun _ => rfl, _, rfl, hsum, ?_, rfl⟩
  rw [State.setPc_pc, hsum]; omega

/-- An address below 0x1000 is the target of the jump that names it. -/
theorem zextAddr_setWidth {w : Word} (h : w.toNat < 0x1000) : zextAddr (w.setWidth 12) = w := by
  apply BitVec.eq_of_toNat_eq
  rw [zextAddr_toNat, BitVec.toNat_setWidth, Nat.mod_eq_of_lt h]

/-- Settles O52: the word is JP to PC, and the jump undoes the advance of PC (R58). -/
theorem jumpToItselfChangesNothing : Obligations.JumpToItselfChangesNothing := by
  intro s hs hpc hword
  have htarget : zextAddr (s.pc.setWidth 12) = s.pc := zextAddr_setWidth (by omega)
  have hjp : BitVec.ofNat 16 s.wordAtPc = wordNNN 0x1 (s.pc.setWidth 12) := by
    rw [hword, wordNNN, ← zextAddr_toNat, htarget]
  have hruns : Runs (BitVec.ofNat 16 s.wordAtPc) (.jp (s.pc.setWidth 12)) :=
    runs_of_eq_encode (hjp.trans (wordNNN_eq_packNNN 0x1 _)) fun _ => rfl
  rw [step_eq_endOf_execHandler hs hpc (hruns _), execHandler, exec, execJp, htarget, endOf_next]
  rfl

/-! ### The skips (R75 to R78) -/

section

variable {α : Type} [BEq α] [LawfulBEq α] [DecidableEq α] (s : State) (a b : α)

theorem State.skipIf_beq : s.skipIf (a == b) = { s with pc := if a = b then s.pc + 2 else s.pc } := by
  simp only [State.skipIf, beq_iff_eq]

theorem State.skipIf_bne : s.skipIf (a != b) = { s with pc := if a = b then s.pc else s.pc + 2 } := by
  simp only [State.skipIf, bne_iff_ne, ite_not]

end

/-- Settles O14: both words are canonical, and the skip compares the bytes. -/
theorem immediateSkips : Obligations.ImmediateSkips := by
  intro s x kk
  simp only [BitVec.toNat_inj, ← State.skipIf_beq, ← State.skipIf_bne]
  exact ⟨runs_of_eq_encode (wordXKK_eq_packXKK 0x3 x kk) fun _ => rfl, rfl,
    runs_of_eq_encode (wordXKK_eq_packXKK 0x4 x kk) fun _ => rfl, rfl⟩

/-- SNE Vx, Vy compares the indices under `index_ne` (R78). -/
theorem exec_sneReg_indexNe {s : State} {x y : Reg} (h : s.config.sneCompare = .indexNe) :
    exec (.sneReg x y) s = .next (s.skipIf (x != y)) := by
  rw [exec, execSneReg, h]

/-- SNE Vx, Vy compares the values under `value_ne` (R78). -/
theorem exec_sneReg_valueNe {s : State} {x y : Reg} (h : s.config.sneCompare = .valueNe) :
    exec (.sneReg x y) s = .next (s.skipIf (s.v[x] != s.v[y])) := by
  rw [exec, execSneReg, h]

/-- Settles O15: the words for every low nibble, and SNE under each value of `SNE_REG_COMPARE`. -/
theorem registerSkips : Obligations.RegisterSkips := by
  intro s x y n
  simp only [BitVec.toNat_inj, ← State.skipIf_beq, ← State.skipIf_bne]
  exact ⟨runs_seReg x y (.ofFin n), rfl, runs_sneReg x y (.ofFin n), exec_sneReg_indexNe, exec_sneReg_valueNe⟩

end Sys2Proof.Machine
end

section

/-! PROOFS. Registers and arithmetic (spec/41_alu.md R81 to R94): what a write of one register and `WriteRF` leave, the
results and flags as numbers, and the cycle in which RND consumes its byte; then the statements about each instruction. -/

namespace Sys2Proof.Machine

/-! ### A result and a flag (R81, R82) -/

section

variable {s : State} {x : Reg}

/-- `WriteRF` changes the register file only. -/
theorem State.writeRF_eq_with_v (rf : ResultFlag) : s.writeRF x rf = { s with v := (s.writeRF x rf).v } := by
  unfold State.writeRF
  cases s.config.vfAsDest <;> rfl

/-- `WriteRF` writes its result and its flag, in the order of R82. -/
theorem State.ResultAndFlag.of_writeRF {rf : ResultFlag} {result flag : Byte} (h : rf = ⟨result, flag⟩) :
    s.ResultAndFlag (s.writeRF x rf) x result flag := by
  subst h
  refine ⟨State.writeRF_eq_with_v _, fun j hx hvf => State.writeRF_get_of_ne hx hvf _,
    fun hx => ⟨?_, State.writeRF_vf (.inr hx) _⟩, fun hx => ?_⟩
  · rw [State.writeRF_get, if_neg fun hvf => hx hvf.1, if_pos rfl]
  · subst hx
    simp only [State.writeRF_get, true_and, forall_const, ↓reduceIte]

end

section

variable (a b : Byte)

theorem flagByte_decide (p : Prop) [Decidable p] : flagByte (decide p) = if p then 1 else 0 := by
  simp only [flagByte, decide_eq_true_eq]

theorem addFlag_eq : addFlag a b = ⟨a + b, if a.toNat + b.toNat > 255 then 1 else 0⟩ := by
  have hresult : BitVec.ofNat 8 ((a.toNat + b.toNat) % 256) = a + b := by bv_omega
  rw [addFlag, flagByte_decide, hresult]

theorem subFlag_eq : subFlag a b = ⟨a - b, if a.toNat ≥ b.toNat then 1 else 0⟩ := by
  have hresult : BitVec.ofNat 8 ((a.toNat + 256 - b.toNat) % 256) = a - b := by bv_omega
  rw [subFlag, flagByte_decide, hresult]

theorem ushiftRight_eq_ofNat (k : Nat) : a >>> k = BitVec.ofNat 8 (a.toNat / 2 ^ k) := by
  apply BitVec.eq_of_toNat_eq
  have := Nat.div_le_self a.toNat (2 ^ k)
  rw [BitVec.toNat_ushiftRight, Nat.shiftRight_eq_div_pow, BitVec.toNat_ofNat, Nat.mod_eq_of_lt (by omega)]

theorem and_one_eq_ofNat : a &&& 0x01 = BitVec.ofNat 8 (a.toNat % 2) := by
  apply BitVec.eq_of_toNat_eq
  simp; omega

theorem shrFlag_eq : shrFlag a = ⟨BitVec.ofNat 8 (a.toNat / 2), BitVec.ofNat 8 (a.toNat % 2)⟩ := by
  have hresult : a >>> 1 = BitVec.ofNat 8 (a.toNat / 2) := ushiftRight_eq_ofNat a 1
  rw [shrFlag, hresult, and_one_eq_ofNat]

theorem shlFlag_eq : shlFlag a = ⟨BitVec.ofNat 8 (2 * a.toNat), BitVec.ofNat 8 (a.toNat / 128)⟩ := by
  have hresult : BitVec.ofNat 8 (a.toNat * 2 % 256) = BitVec.ofNat 8 (2 * a.toNat) := by bv_omega
  have hflag : a >>> 7 = BitVec.ofNat 8 (a.toNat / 128) := ushiftRight_eq_ofNat a 7
  rw [shlFlag, hresult, hflag]

end

/-- Settles O18: the word is canonical, and the sum and the carry are `WriteRF`'s. -/
theorem addWritesSumAndCarry : Obligations.AddWritesSumAndCarry := fun _ x y =>
  ⟨runs_of_eq_encode (wordXYN_eq_packXYN 0x8 x y 0x4) fun _ => rfl, _, rfl, .of_writeRF (addFlag_eq _ _)⟩

/-- Settles O19: SUBN is SUB with the operands exchanged, the minuend first in both. -/
theorem subtractionsWriteDifferenceAndNotBorrow : Obligations.SubtractionsWriteDifferenceAndNotBorrow := fun _ x y =>
  ⟨⟨runs_of_eq_encode (wordXYN_eq_packXYN 0x8 x y 0x5) fun _ => rfl, _, rfl, .of_writeRF (subFlag_eq _ _)⟩,
    runs_of_eq_encode (wordXYN_eq_packXYN 0x8 x y 0x7) fun _ => rfl, _, rfl, .of_writeRF (subFlag_eq _ _)⟩

/-- Settles O20: both results and both bits shifted out are functions of Vx alone. -/
theorem shiftsWriteTheBitShiftedOut : Obligations.ShiftsWriteTheBitShiftedOut := fun _ x y =>
  ⟨⟨runs_of_eq_encode (wordXYN_eq_packXYN 0x8 x y 0x6) fun _ => rfl, _, rfl, .of_writeRF (shrFlag_eq _)⟩,
    runs_of_eq_encode (wordXYN_eq_packXYN 0x8 x y 0xE) fun _ => rfl, _, rfl, .of_writeRF (shlFlag_eq _)⟩

/-! ### One register written (R83 to R88) -/

section

variable (s : State) (x : Reg) (b : Byte)

theorem State.setV_get_self : (s.setV x b).v[x] = b := by
  rw [State.setV_get, if_pos rfl]

/-- A write of one register leaves the other registers and all other state. -/
theorem State.setV_frame :
    (∀ r : Reg, r ≠ x → (s.setV x b).v[r] = s.v[r]) ∧ s.setV x b = { s with v := (s.setV x b).v } :=
  ⟨fun _ => State.setV_get_of_ne, rfl⟩

end

/-- Settles O16: both words are canonical, and the reduced sum fits a byte. -/
theorem immediateLoadAndAdd : Obligations.ImmediateLoadAndAdd := by
  intro s x kk
  refine ⟨⟨runs_of_eq_encode (wordXKK_eq_packXKK 0x6 x kk) fun _ => rfl, _, rfl, s.setV_get_self x kk, s.setV_frame x kk⟩,
    runs_of_eq_encode (wordXKK_eq_packXKK 0x7 x kk) fun _ => rfl, _, rfl, ?_, s.setV_frame x _⟩
  rw [State.setV_get_self, BitVec.toNat_ofNat, Nat.mod_mod]

/-- Settles O17: the words are canonical, and the operators work bit by bit. -/
theorem copyAndLogic : Obligations.CopyAndLogic := by
  intro s x y
  refine ⟨⟨runs_of_eq_encode (wordXYN_eq_packXYN 0x8 x y 0x0) fun _ => rfl, _, rfl, s.setV_get_self x _, s.setV_frame x _⟩,
    ⟨runs_of_eq_encode (wordXYN_eq_packXYN 0x8 x y 0x1) fun _ => rfl, _, rfl, fun k _ => ?_, s.setV_frame x _⟩,
    ⟨runs_of_eq_encode (wordXYN_eq_packXYN 0x8 x y 0x2) fun _ => rfl, _, rfl, fun k _ => ?_, s.setV_frame x _⟩,
    runs_of_eq_encode (wordXYN_eq_packXYN 0x8 x y 0x3) fun _ => rfl, _, rfl, fun k _ => ?_, s.setV_frame x _⟩
  · rw [State.setV_get_self, BitVec.getLsbD_or]
  · rw [State.setV_get_self, BitVec.getLsbD_and]
  · rw [State.setV_get_self, BitVec.getLsbD_xor]

/-! ### The random byte (R94, log entry 4) -/

section

variable {s : State} {x : Reg} {kk : Byte}

/-- RND consumes the byte handed over. -/
theorem exec_rnd_of_some {b : Byte} (h : s.randIn = some b) :
    exec (.rnd x kk) s = .next (s.setV x (b &&& kk)).consumeRand := by
  rw [exec, execRnd, State.randByte, h, Option.getD_some]

/-- Where no byte waits, RND consumes the free value; that it leaves no byte waiting changes nothing. -/
theorem exec_rnd_of_none (h : s.randIn = none) :
    exec (.rnd x kk) s =
      .next { s.setV x (Config.randomByte s.randCount &&& kk) with randCount := s.randCount + 1 } := by
  rw [exec, execRnd, State.randByte, h, Option.getD_none, State.consumeRand, ← h]
  rfl

/-- The cycle of a fetchable word runs its instruction with the host's byte waiting (R56). -/
theorem cycle_of_runs {w : Word} {i : Instr} (rand : Byte) (hw : Runs w i) (hs : s.NoFault) (hpc : s.pc.toNat ≤ 0xFFE)
    (hword : s.wordAtPc = w.toNat) :
    cycle rand s = mapNext State.dropRand (endOf (exec i ((s.setRandIn (some rand)).beginCycle w))) := by
  have hfetched : BitVec.ofNat 16 (s.setRandIn (some rand)).wordAtPc = w :=
    (congrArg (BitVec.ofNat 16) hword).trans ((BitVec.ofNat_toNat 16 w).trans (BitVec.setWidth_eq w))
  rw [cycle_eq_mapNext, step_eq_endOf_execHandler (s := s.setRandIn (some rand)) hs hpc (hfetched ▸ hw _), hfetched,
    execHandler]

end

/-- Settles O22: the cycle runs RND with the host's byte waiting, and masks it bit by bit. -/
theorem rndMasksTheRandomByte : Obligations.RndMasksTheRandomByte := by
  intro s x kk rand
  have hruns : Runs (wordXKK 0xC x kk.toNat) (.rnd x kk) :=
    runs_of_eq_encode (wordXKK_eq_packXKK 0xC x kk) fun _ => rfl
  refine ⟨hruns, fun hs hpc hword => ?_⟩
  rw [cycle_of_runs rand hruns hs hpc hword, exec_rnd_of_some rfl]
  refine ⟨_, rfl, fun k _ => ?_, fun r hr => State.setV_get_of_ne (s := s) hr, rfl⟩
  change (s.setV x (rand &&& kk)).v[x].getLsbD k = _
  rw [State.setV_get_self, BitVec.getLsbD_and]

/-- Settles O23: the byte handed over, or the free value. -/
theorem rndConsumesOneByte : Obligations.RndConsumesOneByte := fun _ _ _ =>
  ⟨fun _ h => exec_rnd_of_some h, fun h => exec_rnd_of_none h⟩

end Sys2Proof.Machine
end

section

/-! PROOFS. The index register and memory through it (spec/42_index_memory.md R95 to R100): the values I takes, an access in
range and out of it, and the bytes and registers it moves; then the statements about each instruction. -/

namespace Sys2Proof.Machine

/-! ### A handler's fault (R115) -/

/-- The tail of a handler takes an instruction's fault, its fields written out (R115). -/
theorem orRaise_error_eq_withFault {α : Type} {s : State} {c : FaultCause} {info : Word} (k : α → State)
    (hc : c ≠ .fetchRange) : orRaise s (.error ⟨c, info⟩) k = .next (s.withFault c.code info) := by
  rw [orRaise_error, State.raise_eq_withFault hc]

/-! ### The index register (R95 to R97) -/

section

variable {s : State} {x : Reg}

/-- The address of a glyph is exact: 0x50 + 5 · 255 fits 16 bits (R97). -/
theorem glyphAddr_toNat (b : Byte) : (glyphAddr b).toNat = 0x050 + 5 * b.toNat := by
  rw [glyphAddr, BitVec.toNat_ofNat]; omega

theorem exec_addI_of_le (h : s.index.toNat + s.v[x].toNat ≤ 0xFFFF) :
    exec (.addI x) s = .next (s.setIndex (BitVec.ofNat 16 (s.index.toNat + s.v[x].toNat))) := by
  obtain ⟨-, hsum⟩ := (s.indexSum_cases x).resolve_right (by omega)
  rw [exec, execAddI, hsum, orRaise_ok]

theorem exec_addI_of_gt (h : s.index.toNat + s.v[x].toNat > 0xFFFF) :
    exec (.addI x) s = .next (s.withFault 7 (zext16 s.v[x])) := by
  obtain ⟨-, hsum⟩ := (s.indexSum_cases x).resolve_left (by omega)
  rw [exec, execAddI, hsum]
  exact orRaise_error_eq_withFault _ (by decide)

end

/-- Settles O24: both words are canonical, and both addresses fit I. -/
theorem indexLoads : Obligations.IndexLoads := fun s nnn x =>
  ⟨⟨runs_of_eq_encode (wordNNN_eq_packNNN 0xA nnn) fun _ => rfl, _, rfl, zextAddr_toNat nnn, rfl⟩,
    runs_of_eq_encode (wordXKK_eq_packXKK 0xF x 0x29) fun _ => rfl, _, rfl, glyphAddr_toNat s.v[x], rfl⟩

/-- Settles O25: the sum is exact where it fits 16 bits, and is the fault where it does not. -/
theorem addToIndexOrFault : Obligations.AddToIndexOrFault := by
  intro s x
  refine ⟨runs_of_eq_encode (wordXKK_eq_packXKK 0xF x 0x1E) fun _ => rfl, fun h => ?_, exec_addI_of_gt⟩
  refine ⟨_, exec_addI_of_le h, ?_, rfl⟩
  rw [State.setIndex_index, BitVec.toNat_ofNat, Nat.mod_eq_of_lt (by omega)]

/-! ### An access in range and out of it (R39, R40) -/

section

variable {s : State} {a n : Nat}

/-- A handler's write in range stores its bytes. -/
theorem orRaise_memWrite_of_le {bytes : List Byte} (k : State → State) (h : a + bytes.length - 1 ≤ 0xFFF) :
    orRaise s (memWrite s a bytes) k = .next (k (s.storeBytes a bytes)) := by
  obtain ⟨-, hwrite⟩ := (memWrite_cases s a bytes).resolve_right (by omega)
  rw [hwrite, orRaise_ok]

/-- A handler's write past 0xFFF is fault 5. -/
theorem orRaise_memWrite_of_gt {bytes : List Byte} (k : State → State) (h : a + bytes.length - 1 > 0xFFF) :
    orRaise s (memWrite s a bytes) k = .next (s.withFault 5 (rangeInfo a)) := by
  obtain ⟨-, hwrite⟩ := (memWrite_cases s a bytes).resolve_left (by omega)
  rw [hwrite]
  exact orRaise_error_eq_withFault k (by decide)

/-- A read in range answers the bytes from its address up. -/
theorem memRead_of_le (h : a + n - 1 ≤ 0xFFF) :
    ∃ bytes, memRead s a n = .ok bytes ∧ ∀ k < n, bytes.getD k 0 = s.readByte (a + k) := by
  obtain ⟨-, hread⟩ := (memRead_cases s a n).resolve_right (by omega)
  exact ⟨_, hread, fun k hk => by simp [hk]⟩

/-- A handler's read past 0xFFF is fault 4. -/
theorem orRaise_memRead_of_gt (k : List Byte → State) (h : a + n - 1 > 0xFFF) :
    orRaise s (memRead s a n) k = .next (s.withFault 4 (rangeInfo a)) := by
  obtain ⟨-, hread⟩ := (memRead_cases s a n).resolve_left (by omega)
  rw [hread]
  exact orRaise_error_eq_withFault k (by decide)

end

/-! ### The decimal digits (R98) -/

/-- The digits as numbers: each fits its byte. -/
theorem decimalDigits_map_toNat (b : Byte) :
    (decimalDigits b).map BitVec.toNat = [b.toNat / 100, b.toNat / 10 % 10, b.toNat % 10] := by
  simp [decimalDigits]; omega

/-- A digit stored is at its offset. -/
theorem readByte_storeBytes_decimalDigits {s : State} (a : Nat) (b : Byte) (hm : Memory.WF s.config.font s.mem) {k : Nat}
    (hk : k < 3) :
    ((s.storeBytes a (decimalDigits b)).readByte (a + k)).toNat =
      [b.toNat / 100, b.toNat / 10 % 10, b.toNat % 10][k] := by
  rw [s.readByte_storeBytes_same (decimalDigits b) a k hk hm]
  exact (List.getElem_map _).symm.trans (List.getElem_of_eq (decimalDigits_map_toNat b) hk)

/-- Settles O26: the three digits read back, or the fault. -/
theorem decimalDigitsAreStored : Obligations.DecimalDigitsAreStored := by
  intro s x hm
  refine ⟨runs_of_eq_encode (wordXKK_eq_packXKK 0xF x 0x33) fun _ => rfl, fun h => ?_,
    orRaise_memWrite_of_gt (bytes := decimalDigits s.v[x]) _⟩
  have hdigit {k : Nat} (hk : k < 3) := readByte_storeBytes_decimalDigits (s.indexAddr 0) s.v[x] hm hk
  exact ⟨_, orRaise_memWrite_of_le _ h, hdigit (k := 0) (by decide), hdigit (k := 1) (by decide),
    hdigit (k := 2) (by decide), s.readByte_storeBytes_other (decimalDigits s.v[x]) _, rfl⟩

/-! ### The registers through I (R99, R100) -/

section

variable {s : State} {x : Reg}

theorem exec_storeRegs_of_gt (h : s.indexAddr 0 + x.val > 0xFFF) :
    exec (.storeRegs x) s = .next (s.withFault 5 (rangeInfo (s.indexAddr 0))) :=
  orRaise_memWrite_of_gt _ (by rw [State.regsUpTo_length]; exact h)

/-- Fx65 in range loads each register from its offset (R100). -/
theorem exec_loadRegs_of_le (h : s.indexAddr 0 + x.val ≤ 0xFFF) :
    ∃ bytes, exec (.loadRegs x) s = .next (s.setRegsUpTo x bytes) ∧
      ∀ k : Reg, k ≤ x → (s.setRegsUpTo x bytes).v[k] = s.readByte (s.indexAddr 0 + k.val) := by
  obtain ⟨bytes, hread, hbytes⟩ := memRead_of_le (s := s) (a := s.indexAddr 0) (n := x.val + 1) h
  refine ⟨bytes, by rw [exec, execLoadRegs, hread, orRaise_ok], fun k hk => ?_⟩
  rw [State.setRegsUpTo_get, if_pos hk, hbytes k.val (Nat.lt_succ_of_le hk)]

end

/-- Settles O27: the stored registers read back, or the fault. -/
theorem registersAreStored : Obligations.RegistersAreStored := by
  intro s x hm
  refine ⟨runs_of_eq_encode (wordXKK_eq_packXKK 0xF x 0x55) fun _ => rfl, fun h => ?_, exec_storeRegs_of_gt⟩
  refine ⟨_, exec_storeRegs_of_le h, fun k hk => readByte_storeBytes_regsUpTo hm hk, fun a ha => ?_, rfl⟩
  exact s.readByte_storeBytes_other _ _ a (by rw [State.regsUpTo_length]; exact ha)

/-- Settles O28: the registers up to Vx are loaded and those above it kept, or the fault. -/
theorem registersAreLoaded : Obligations.RegistersAreLoaded := by
  intro s x
  refine ⟨runs_of_eq_encode (wordXKK_eq_packXKK 0xF x 0x65) fun _ => rfl, fun h => ?_,
    orRaise_memRead_of_gt (n := x.val + 1) _⟩
  obtain ⟨bytes, hexec, hloaded⟩ := exec_loadRegs_of_le h
  refine ⟨_, hexec, hloaded, fun k hk => ?_, rfl⟩
  rw [State.setRegsUpTo_get, if_neg (not_le_of_gt hk)]

end Sys2Proof.Machine
end

section

/-! PROOFS. The display (spec/43_display.md R101 to R105): the sprite of a draw on any framebuffer, the pixels it toggles
and the collisions it counts, from the closed form of the drawing loops; then the statements about CLS and DRW. -/

namespace Sys2Proof.Machine

/-- Settles O30: a blank screen has no pixel ON. -/
theorem clsClearsEveryPixel : Obligations.ClsClearsEveryPixel :=
  ⟨runs_encode (i := .cls) fun _ => rfl, fun _ => ⟨_, rfl, FrameBuffer.pixel_blank, rfl⟩⟩

/-! ### The sprite of a draw (R101, R102, R103) -/

/-- The bytes of a sprite of height n at I (R101). -/
def State.spriteBytes (s : State) (n : Height) : List Byte :=
  (List.range n.val).map fun r => s.readByte (s.index.toNat + r)

/-- The state's sprite drawn on a framebuffer, which need not be the state's own: `exec_drw_of_le` ties it to DRW. -/
def State.drawOn (s : State) (x y : Reg) (n : Height) (fb : FrameBuffer) : FrameBuffer × Bool :=
  drawSprite s.config.drawCollision (s.spriteBytes n) (s.originColumn x) (s.originRow y) fb

/-- The state after a draw (R105). -/
def State.drawn (s : State) (x y : Reg) (n : Height) : State :=
  (s.setFb (s.drawOn x y n s.fb).1).setV vf (flagByte (s.drawOn x y n s.fb).2)

/-- A set bit of the sprite lands on the pixel. -/
def State.Covers (s : State) (x y : Reg) (n : Height) (px py : Nat) : Prop :=
  ∃ r c, r < n.val ∧ c < 8 ∧ s.SpriteBitAt x y r c px py

/-- A counted set bit of the sprite lands on a pixel that is ON in the framebuffer, or on one that is OFF. -/
def State.LandsOn (s : State) (x y : Reg) (n : Height) (fb : FrameBuffer) (on : Bool) : Prop :=
  ∃ r c px py, r < n.val ∧ c < 8 ∧ s.SpriteBitAt x y r c px py ∧ fb.pixel px py = on ∧ s.Counts c

theorem spriteBit_eq_getLsbD (b : Byte) (c : Nat) : spriteBit b c = b.getLsbD (7 - c) := by
  rw [Bool.eq_iff_iff, spriteBit, beq_iff_eq, ← BitVec.toNat_inj, BitVec.toNat_and, BitVec.toNat_ushiftRight]
  simp [BitVec.getLsbD, Nat.testBit, Nat.and_comm]

theorem flagByte_eq_one_iff (c : Bool) : flagByte c = 1 ↔ c = true := by
  cases c <;> decide

section

variable {s : State} {x y : Reg} {n : Height} {fb : FrameBuffer} {px py : Nat}

theorem State.counts_iff (c : Nat) : s.Counts c ↔ collisionCounts s.config.drawCollision c = true := by
  unfold State.Counts collisionCounts
  cases s.config.drawCollision <;> simp

@[simp] theorem State.spriteBytes_length : (s.spriteBytes n).length = n.val := by
  simp [State.spriteBytes]

/-- The spec's sprite bit in the terms of the drawing loops. -/
theorem State.spriteBitAt_iff {r c : Nat} (hr : r < n.val) :
    s.SpriteBitAt x y r c px py ↔ spriteBit ((s.spriteBytes n).getD r 0) c = true ∧
      px = s.originColumn x + c ∧ py = s.originRow y + r ∧ px < 64 ∧ py < 32 := by
  have hbyte : (s.spriteBytes n).getD r 0 = s.readByte (s.index.toNat + r) := by simp [State.spriteBytes, hr]
  rw [hbyte, spriteBit_eq_getLsbD]
  rfl

/-- The closed form of the loops covers the pixels the spec's sprite bits land on: the pixel and the origin determine the
row and the column. -/
theorem State.covers_iff :
    s.Covers x y n px py ↔ spriteCovers (s.spriteBytes n) (s.originColumn x) (s.originRow y) px py = true := by
  simp only [spriteCovers, columnsCover, Bool.and_eq_true, decide_eq_true_eq, State.spriteBytes_length]
  constructor
  · rintro ⟨r, c, hr, hc, hat⟩
    obtain ⟨hbit, rfl, rfl, hpx, hpy⟩ := (State.spriteBitAt_iff hr).mp hat
    rw [Nat.add_sub_cancel_left, Nat.add_sub_cancel_left]
    exact ⟨by omega, by omega, hbit⟩
  · rintro ⟨⟨hrow, hrow', hpy⟩, ⟨hcol, hcol', hpx⟩, hbit⟩
    have hr : py - s.originRow y < n.val := by omega
    refine ⟨_, px - s.originColumn x, hr, by omega, (State.spriteBitAt_iff hr).mpr ⟨hbit, ?_, ?_, hpx, hpy⟩⟩ <;> omega

theorem State.drawOn_pixel_of_covers (h : s.Covers x y n px py) :
    (s.drawOn x y n fb).1.pixel px py = !fb.pixel px py := by
  rw [State.drawOn, drawSprite_pixel, State.covers_iff.mp h, Bool.xor_true]

theorem State.drawOn_pixel_of_not_covers (h : ¬s.Covers x y n px py) :
    (s.drawOn x y n fb).1.pixel px py = fb.pixel px py := by
  rw [State.covers_iff, Bool.not_eq_true] at h
  rw [State.drawOn, drawSprite_pixel, h, Bool.xor_false]

/-- The closed form of the loops counts the collisions the spec counts (R103). -/
theorem State.drawOn_collision : (s.drawOn x y n fb).2 = true ↔ s.LandsOn x y n fb true := by
  rw [State.drawOn, drawSprite_collision]
  simp only [State.spriteBytes_length, bitCollides, ← State.counts_iff]
  constructor
  · rintro ⟨r, hr, c, hc, hbit, hpx, hpy, hon, hcounts⟩
    exact ⟨r, c, _, _, hr, hc, (State.spriteBitAt_iff hr).mpr ⟨hbit, rfl, rfl, hpx, hpy⟩, hon, hcounts⟩
  · rintro ⟨r, c, px, py, hr, hc, hat, hon, hcounts⟩
    obtain ⟨hbit, rfl, rfl, hpx, hpy⟩ := (State.spriteBitAt_iff hr).mp hat
    exact ⟨r, hr, c, hc, hbit, hpx, hpy, hon, hcounts⟩

/-! ### One draw (R105) -/

theorem exec_drw_of_le (h : n.val = 0 ∨ s.index.toNat + n.val - 1 ≤ 0xFFF) :
    exec (.drw x y n) s = .next (s.drawn x y n) := by
  have hrows : s.spriteRows n = .ok (s.spriteBytes n) := by
    rcases s.spriteRows_cases n with ⟨hn, hrows⟩ | ⟨hn, hrows⟩
    · rw [hrows, State.spriteBytes, hn]; rfl
    · obtain ⟨-, hread⟩ := (memRead_cases s s.index.toNat n.val).resolve_right (by omega)
      rw [hrows, hread]; rfl
  rw [exec, execDrw, hrows]
  rfl

theorem exec_drw_of_gt (hn : n.val > 0) (h : s.index.toNat + n.val - 1 > 0xFFF) :
    exec (.drw x y n) s = .next (s.withFault 4 (rangeInfo s.index.toNat)) := by
  obtain ⟨-, hrows⟩ := (s.spriteRows_cases n).resolve_left (by omega)
  rw [exec, execDrw, hrows]
  exact orRaise_memRead_of_gt _ h

theorem State.drawn_vf : (s.drawn x y n).v[vf] = flagByte (s.drawOn x y n s.fb).2 := State.setV_get_self _ _ _

theorem State.drawn_vf_eq_one_iff : (s.drawn x y n).v[vf] = 1 ↔ s.LandsOn x y n s.fb true := by
  rw [State.drawn_vf, flagByte_eq_one_iff, State.drawOn_collision]

theorem State.drawn_vf_of_not_landsOn (h : ¬s.LandsOn x y n s.fb true) : (s.drawn x y n).v[vf] = 0 := by
  rw [← State.drawn_vf_eq_one_iff] at h
  rw [State.drawn_vf] at h ⊢
  exact (flagByte_eq_zero_or_one _).resolve_right h

/-! ### A second draw of the same sprite (R105) -/

theorem State.drawn_get_of_ne {r : Reg} (h : r ≠ vf) : (s.drawn x y n).v[r] = s.v[r] := State.setV_get_of_ne h

/-- With an origin that is not read from VF, the sprite is the same after the draw. -/
theorem State.drawOn_drawn (hx : x ≠ vf) (hy : y ≠ vf) : (s.drawn x y n).drawOn x y n = s.drawOn x y n := by
  funext fb
  simp only [State.drawOn, State.originColumn, State.originRow, State.drawn_get_of_ne hx, State.drawn_get_of_ne hy]
  rfl

/-- Drawing a sprite twice toggles each of its pixels twice. -/
theorem State.drawOn_drawOn : (s.drawOn x y n (s.drawOn x y n fb).1).1 = fb := by
  refine FrameBuffer.ext_pixel fun px py _ _ => ?_
  by_cases h : s.Covers x y n px py
  · rw [State.drawOn_pixel_of_covers h, State.drawOn_pixel_of_covers h, Bool.not_not]
  · rw [State.drawOn_pixel_of_not_covers h, State.drawOn_pixel_of_not_covers h]

/-- After the draw, a bit lands on a pixel that is ON where before the draw the pixel was OFF. -/
theorem State.landsOn_drawOn : s.LandsOn x y n (s.drawOn x y n fb).1 true ↔ s.LandsOn x y n fb false := by
  have hpixel {r c px py : Nat} (hr : r < n.val) (hc : c < 8) (hat : s.SpriteBitAt x y r c px py) :
      (s.drawOn x y n fb).1.pixel px py = true ↔ fb.pixel px py = false := by
    rw [State.drawOn_pixel_of_covers ⟨r, c, hr, hc, hat⟩, Bool.not_eq_true']
  constructor <;> rintro ⟨r, c, px, py, hr, hc, hat, hpx, hcounts⟩
  · exact ⟨r, c, px, py, hr, hc, hat, (hpixel hr hc hat).mp hpx, hcounts⟩
  · exact ⟨r, c, px, py, hr, hc, hat, (hpixel hr hc hat).mpr hpx, hcounts⟩

end

/-- Settles O31: the drawn state pixel by pixel, with VF as the collision leaves it, or the fault. -/
theorem drwTogglesTheSpritesPixels : Obligations.DrwTogglesTheSpritesPixels := by
  intro s x y n
  refine ⟨runs_of_eq_encode (wordXYN_eq_packXYN 0xD x y (.ofFin n)) fun _ => rfl, fun h => ?_, exec_drw_of_gt⟩
  exact ⟨s.drawn x y n, exec_drw_of_le h,
    fun px py _ _ => ⟨State.drawOn_pixel_of_covers, State.drawOn_pixel_of_not_covers⟩,
    State.drawn_vf_eq_one_iff.mpr, State.drawn_vf_of_not_landsOn, fun _ => State.drawn_get_of_ne, rfl⟩

/-- Settles O32: the second draw is of the same sprite, on the framebuffer that the first left. -/
theorem drawingTwiceRestoresTheScreen : Obligations.DrawingTwiceRestoresTheScreen := by
  intro s x y n hx hy h
  refine ⟨s.drawn x y n, (s.drawn x y n).drawn x y n, exec_drw_of_le h, exec_drw_of_le h, ?_, ?_⟩
  · change ((s.drawn x y n).drawOn x y n (s.drawOn x y n s.fb).1).1 = s.fb
    rw [State.drawOn_drawn hx hy, State.drawOn_drawOn]
  · rw [State.drawn_vf, flagByte_eq_one_iff, State.drawOn_drawn hx hy, State.drawOn_collision]
    exact State.landsOn_drawOn

end Sys2Proof.Machine
end

section

/-! PROOFS. The keypad and the timers (spec/44_keypad_timers.md R106 to R111): a key operand in range and out of it, the
wait for a key, and the cycle that waits; then the statements about each instruction. -/

namespace Sys2Proof.Machine

/-! ### The wait for a key (R109) -/

section

variable {s : State} {x : Reg}

/-- Fx0A takes the lowest pressed key. -/
theorem exec_ldVxKey_of_lowest {k : Key} (hk : s.keys[k] = true) (hlow : ∀ j : Key, j < k → s.keys[j] = false) :
    exec (.ldVxKey x) s = .next (s.setV x (BitVec.ofNat 8 k.val)) := by
  rw [exec, execLdVxKey, (s.lowestKey_eq_some k).mpr ⟨hk, hlow⟩]

/-- Fx0A with no key pressed moves PC back to the instruction. -/
theorem exec_ldVxKey_of_none (h : ∀ k : Key, s.keys[k] = false) : exec (.ldVxKey x) s = .next (s.setPc (s.pc - 2)) := by
  rw [exec, execLdVxKey, s.lowestKey_eq_none.mpr h]

/-- A step at a fetchable word runs its instruction (R56). -/
theorem step_of_runs {w : Word} {i : Instr} (hw : Runs w i) (hs : s.NoFault) (hpc : s.pc.toNat ≤ 0xFFE)
    (hword : s.wordAtPc = w.toNat) : step s = endOf (exec i (s.beginCycle w)) := by
  have hfetched : BitVec.ofNat 16 s.wordAtPc = w := by rw [hword, BitVec.ofNat_toNat, BitVec.setWidth_eq]
  rw [step_eq_endOf_execHandler hs hpc (hfetched ▸ hw _), hfetched, execHandler]

end

/-- Settles O35: the lowest key fits a byte, and the rewind undoes the advance of PC (R58). -/
theorem waitForKey : Obligations.WaitForKey := by
  intro s x
  have hruns : Runs (wordXKK 0xF x 0x0A) (.ldVxKey x) := runs_of_eq_encode (wordXKK_eq_packXKK 0xF x 0x0A) fun _ => rfl
  refine ⟨hruns, fun k hk hlow => ?_, exec_ldVxKey_of_none, fun hnone hs hpc hword => ?_⟩
  · refine ⟨_, exec_ldVxKey_of_lowest hk hlow, ?_, s.setV_frame x _⟩
    rw [State.setV_get_self, BitVec.toNat_ofNat, Nat.mod_eq_of_lt (by omega)]
  · rw [step_of_runs hruns hs hpc hword, exec_ldVxKey_of_none (s := s.beginCycle _) hnone,
      State.beginCycle_pc_sub, endOf_next]
    rfl

/-! ### The key tests (R106, R107) -/

section

variable {s : State} {x : Reg}

theorem State.keyOperand_of_eq {k : Key} (h : s.v[x].toNat = k.val) : s.keyOperand x = .ok k := by
  obtain ⟨k', hk', hkey⟩ := (s.keyOperand_cases x).resolve_right (by omega)
  rw [hkey, Fin.ext (hk'.trans h)]

/-- A key test of Vx above 0xF is fault 6, whatever it does with a key. -/
theorem orRaise_keyOperand_of_gt (k : Key → State) (h : s.v[x].toNat > 0xF) :
    orRaise s (s.keyOperand x) k = .next (s.withFault 6 (zext16 s.v[x])) := by
  obtain ⟨-, hkey⟩ := (s.keyOperand_cases x).resolve_left fun ⟨_, hk, _⟩ => by omega
  rw [hkey]
  exact orRaise_error_eq_withFault k (by decide)

theorem exec_skp_of_eq {k : Key} (h : s.v[x].toNat = k.val) : exec (.skp x) s = .next (s.skipIf s.keys[k]) := by
  rw [exec, execSkp, State.keyOperand_of_eq h, orRaise_ok]

theorem exec_sknp_of_eq {k : Key} (h : s.v[x].toNat = k.val) : exec (.sknp x) s = .next (s.skipIf (!s.keys[k])) := by
  rw [exec, execSknp, State.keyOperand_of_eq h, orRaise_ok]

theorem State.skipIf_not (c : Bool) : s.skipIf (!c) = { s with pc := if c = true then s.pc else s.pc + 2 } := by
  cases c <;> rfl

end

/-- Settles O33: a key in range decides both skips, and both take the fault of the one operand out of range. -/
theorem keySkips : Obligations.KeySkips := by
  intro s x
  refine ⟨runs_of_eq_encode (wordXKK_eq_packXKK 0xE x 0x9E) fun _ => rfl,
    runs_of_eq_encode (wordXKK_eq_packXKK 0xE x 0xA1) fun _ => rfl, fun k hk => ⟨exec_skp_of_eq hk, ?_⟩,
    fun h => ⟨orRaise_keyOperand_of_gt _ h, orRaise_keyOperand_of_gt _ h⟩⟩
  rw [exec_sknp_of_eq hk, State.skipIf_not]

/-! ### The timers (R108, R110, R111) -/

/-- Settles O34: the words are canonical, and each timer move is one named update of the state. -/
theorem timerMoves : Obligations.TimerMoves := fun s x =>
  ⟨⟨runs_of_eq_encode (wordXKK_eq_packXKK 0xF x 0x07) fun _ => rfl, _, rfl, s.setV_get_self x _, s.setV_frame x _⟩,
    ⟨runs_of_eq_encode (wordXKK_eq_packXKK 0xF x 0x15) fun _ => rfl, rfl⟩,
    runs_of_eq_encode (wordXKK_eq_packXKK 0xF x 0x18) fun _ => rfl, rfl⟩

end Sys2Proof.Machine
end

section

/-! PROOFS. Faults (spec/60_exceptions.md R113, R115): when an instruction raises one and what it then leaves, and that a
fault is precise. -/

namespace Sys2Proof.Machine

/-! ### The fault of an instruction (R113) -/

section

variable {i : Instr} {s t : State}

/-- FETCH_RANGE is the fetch's alone: no instruction raises code 1. -/
theorem raises_code_ne_one {code info : Nat} (h : raises i s = some (code, info)) : code ≠ 1 := by
  rintro rfl
  cases i with
  | call _ | ret | drw _ _ _ | loadRegs _ | ldB _ | storeRegs _ | skp _ | sknp _ | addI _ =>
    simp only [raises] at h
    split at h <;> cases h
  | _ => cases h

theorem FaultCause.code_eq_one_iff (c : FaultCause) : c.code.toNat = 1 ↔ c = .fetchRange := by
  cases c <;> decide

/-- The fault a row of R113 names, its fields written out. -/
theorem State.raise_eq_withFault_of_raises {r : FaultRaise} (h : raises i s = some (r.cause.code.toNat, r.info.toNat))
    (t : State) : t.raise r = t.withFault r.cause.code r.info :=
  State.raise_eq_withFault fun hc => raises_code_ne_one h (r.cause.code_eq_one_iff.mpr hc)

theorem exec_of_raises {code info : Nat} (h : raises i s = some (code, info)) :
    exec i s = .next (s.withFault (BitVec.ofNat 8 code) (BitVec.ofNat 16 info)) := by
  obtain ⟨t, ht⟩ := exec_completes s i
  rcases exec_cases ht with ⟨hnone, -⟩ | ⟨r, hr, rfl⟩
  · rw [hnone] at h; cases h
  · obtain ⟨rfl, rfl⟩ : r.cause.code.toNat = code ∧ r.info.toNat = info := by simpa [hr] using h
    rw [ht, State.raise_eq_withFault_of_raises hr]
    simp

/-- An instruction that raises nothing records no fault and clears none. -/
theorem faulted_of_raises_none (h : exec i s = .next t) (hr : raises i s = none) : t.faulted = s.faulted := by
  obtain ⟨-, -, -, -, -, -, -, -, hstatus, -⟩ := specialStateFrame i s t h
  exact (hstatus hr).1

/-- An instruction's row reads none of PC and the opcode latch. -/
theorem raises_beginCycle (op : Word) : raises i (s.beginCycle op) = raises i s := rfl

end

/-- Settles O36: the fetch, the unmatched word, and the instruction by its row. -/
theorem faultsExactlyUnderTheirConditions : Obligations.FaultsExactlyUnderTheirConditions := by
  intro s hs
  refine ⟨fun hpc => ?_, fun hpc hd => ?_, fun i => ⟨fun _ _ => exec_of_raises, fun hr => ?_⟩⟩
  · exact ⟨_, step_of_fetch_error hs (fetch_of_ge (by omega)), rfl, rfl, rangeInfo_index_toNat s.pc⟩
  · exact ⟨_, step_eq_endOf_execHandler hs (by omega) hd, hs⟩
  · obtain ⟨t, ht⟩ := exec_completes s i
    exact ⟨t, ht, (faulted_of_raises_none ht hr).trans hs⟩

/-! ### A fault is precise (R115) -/

/-- A step that records a fault: the fetch's, or that of the instruction at PC. -/
theorem step_fault_cases {s t : State} (hs : s.NoFault) (h : step s = .next t) (ht : t.faulted = true) :
    (s.pc.toNat ≥ 0xFFF ∧ t = (s.takeFault ⟨.fetchRange, rangeInfo s.pc.toNat⟩ s.pc 0).endCycle) ∨
    (s.pc.toNat ≤ 0xFFE ∧ ∃ i r, decode s.config.subDecode (BitVec.ofNat 16 s.wordAtPc) = .instr i ∧
      raises i s = some (r.cause.code.toNat, r.info.toNat) ∧
      t = ((s.beginCycle (BitVec.ofNat 16 s.wordAtPc)).raise r).endCycle) := by
  rcases step_cases h with ⟨hf, -⟩ | ⟨-, hpc, rfl⟩ | ⟨-, hpc, op, u, hop, -, hu, rfl⟩
  · rw [hs] at hf; cases hf
  · exact .inl ⟨hpc, rfl⟩
  · obtain rfl : BitVec.ofNat 16 s.wordAtPc = op := by simpa [fetch_eq_wordAtPc hpc] using hop
    refine .inr ⟨hpc, ?_⟩
    cases hd : decode s.config.subDecode (BitVec.ofNat 16 s.wordAtPc) with
    | unmatched => rw [hd] at hu; cases hu; simp [hs] at ht
    | instr i =>
      rw [hd] at hu
      rcases exec_cases hu with ⟨hnone, -⟩ | ⟨r, hr, rfl⟩
      · have hfaulted : u.faulted = s.faulted := faulted_of_raises_none (s := s.beginCycle _) hu hnone
        simp [hfaulted, hs] at ht
      · exact ⟨i, r, rfl, (raises_beginCycle _).symm.trans hr, rfl⟩

/-- A cycle whose instruction raises a fault leaves PC, and writes the fault status registers with the fetched word. -/
theorem State.endCycle_withFault_beginCycle (s : State) (op : Word) (code : Byte) (info : Word) :
    ((s.beginCycle op).withFault code info).endCycle =
      { s with
        faulted := true, faultCause := code, faultPc := s.pc, faultOpcode := op, faultInfo := info, opcode := 0 } := by
  rw [State.withFault, State.beginCycle_pc_sub]
  rfl

/-- Settles O37: each of the two faults, its fields written out. -/
theorem faultsArePrecise : Obligations.FaultsArePrecise := by
  intro s t hs h ht
  rcases step_fault_cases hs h ht with ⟨hpc, rfl⟩ | ⟨hpc, i, r, hd, hr, rfl⟩
  · exact ⟨.inl ⟨hpc, rfl, rangeInfo_index_toNat s.pc⟩, rfl⟩
  · have hcode : r.cause.code.toNat ≠ 1 := raises_code_ne_one hr
    rw [State.raise_eq_withFault_of_raises hr, State.endCycle_withFault_beginCycle]
    refine ⟨.inr ⟨hpc, hcode, i, hd, hr⟩, ?_⟩
    simp only [if_neg hcode]

end Sys2Proof.Machine
end

section

/-! PROOFS. The host's transactions (spec/60_exceptions.md R116, R124 to R129): the tick, a key written, the two reads,
the random byte of a cycle, and what a faulted core does. -/

namespace Sys2Proof.Machine

/-! ### The tick (R124) -/

theorem countDown_toNat (b : Byte) : (countDown b).toNat = b.toNat - 1 := by
  unfold countDown
  split <;> bv_omega

/-- Settles O43: both timers count down, faulted or not. -/
theorem tickCountsDown : Obligations.TickCountsDown := fun s =>
  ⟨tick s, rfl, countDown_toNat s.dt, countDown_toNat s.st, rfl⟩

/-! ### A key written (R126) -/

section

variable {s : State} {j k : Key}

theorem keyWrite_get_self (b : Bool) : (keyWrite k b s).keys[k] = b := Vector.getElem_set_self k.isLt

theorem keyWrite_get_of_ne (b : Bool) (h : j ≠ k) : (keyWrite k b s).keys[j] = s.keys[j] :=
  Vector.getElem_set_ne k.isLt j.isLt fun hval => h (Fin.ext hval.symm)

theorem keyWrite_comm (b c : Bool) (h : j ≠ k) : keyWrite j c (keyWrite k b s) = keyWrite k b (keyWrite j c s) :=
  congrArg (fun keys => { s with keys := keys }) (Vector.set_comm b c fun hval => h (Fin.ext hval.symm))

end

/-- Settles O44: the write by the one key it sets, and the cycle by its step. -/
theorem keyWritesSetOneKey : Obligations.KeyWritesSetOneKey := by
  intro s k b
  refine ⟨⟨keyWrite k b s, rfl, keyWrite_get_self b, fun j => keyWrite_get_of_ne b, rfl⟩, fun j c h => ?_,
    fun rand r t h => ?_⟩
  · exact congrArg (fun u => Host.Outcome.next ([Reply.none, Reply.none], u)) (keyWrite_comm b c h)
  · obtain ⟨u, hu, rfl⟩ := transact_cycle h
    exact step_keys (s := s.setRandIn (some rand)) (t := u) hu

/-! ### The host's reads (R127, R129) -/

section

variable (fb : FrameBuffer)

/-- The words are those of the rows, one row after the other (R23). -/
theorem FrameBuffer.words_eq_flatMap : fb.words = (fb.flatMap (Vector.map pixelWord)).toList := by
  simp [FrameBuffer.words, Vector.flatMap, List.flatMap_def, Vector.toList]

theorem FrameBuffer.words_length : fb.words.length = 2048 := by
  rw [FrameBuffer.words_eq_flatMap, Vector.length_toList]

/-- Word 64 py + px is the pixel (px, py). -/
theorem FrameBuffer.words_getElem? {px py : Nat} (hx : px < 64) (hy : py < 32) :
    fb.words[py * 64 + px]? = some (pixelWord (fb.pixel px py)) := by
  have hcol : (py * 64 + px) % 64 = px := by omega
  have hrow : (py * 64 + px) / 64 = py := by omega
  have hword : py * 64 + px < 32 * 64 := by omega
  rw [FrameBuffer.words_eq_flatMap, Vector.getElem?_toList, Vector.getElem?_eq_getElem hword,
    Vector.getElem_flatMap hword]
  simp only [hcol, hrow, Vector.getElem_map, FrameBuffer.pixel, dif_pos (And.intro hx hy)]

end

/-- Settles O45: the words of the framebuffer in their order, and the status registers as they stand. -/
theorem hostReads : Obligations.HostReads := fun s =>
  ⟨⟨s.fb.words, rfl, s.fb.words_length, fun _ _ hx hy => s.fb.words_getElem? hx hy⟩, rfl⟩

/-! ### A cycle that does not run RND (R128) -/

section

variable {s : State} (o : Option Byte)

theorem endOf_mapNext_setRandIn (r : Result) :
    endOf (mapNext (State.setRandIn · o) r) = mapNext (State.setRandIn · o) (endOf r) := by
  cases r <;> rfl

theorem execHandler_setRandIn {hd : Handler} (h : ∀ x kk, hd ≠ .instr (.rnd x kk)) :
    execHandler hd (s.setRandIn o) = mapNext (State.setRandIn · o) (execHandler hd s) := by
  cases hd with
  | unmatched => rfl
  | instr i => exact exec_setRandIn s o fun x kk hi => h x kk (congrArg Handler.instr hi)

/-- A step passes the waiting byte on where it fetches nothing, or a word that is not RND's. -/
theorem step_setRandIn (h : s.NoFault → s.pc.toNat ≤ 0xFFE → ∀ x kk,
      decode s.config.subDecode (BitVec.ofNat 16 s.wordAtPc) ≠ .instr (.rnd x kk)) :
    step (s.setRandIn o) = mapNext (State.setRandIn · o) (step s) := by
  cases hf : s.faulted with
  | true => rw [step_of_faulted hf, step_of_faulted (s := s.setRandIn o) hf, mapNext_next]
  | false =>
    by_cases hpc : s.pc.toNat ≤ 0xFFE
    · rw [step_eq_endOf_execHandler hf hpc rfl, step_eq_endOf_execHandler (s := s.setRandIn o) hf hpc rfl,
        ← endOf_mapNext_setRandIn, ← execHandler_setRandIn o (h hf hpc)]
      rfl
    · have hfetch := fetch_of_ge (s := s) (by omega)
      rw [step_of_fetch_error hf hfetch, step_of_fetch_error (s := s.setRandIn o) hf hfetch]
      rfl

end

/-- Settles O50: the byte passed on is the byte dropped. -/
theorem onlyRndReadsTheRandomByte : Obligations.OnlyRndReadsTheRandomByte := by
  intro s b c h
  have hdropped (rand : Byte) : cycle rand s = mapNext State.dropRand (step s) := by
    rw [cycle_eq_mapNext, step_setRandIn _ h, mapNext_mapNext]
    rfl
  rw [hdropped b, hdropped c]

/-! ### The faulted core (R116) -/

/-- The state with its fault flag replaced. -/
def State.setFaulted (s : State) (b : Bool) : State := { s with faulted := b }

theorem State.setFaulted_of_eq {s : State} {b : Bool} (h : s.faulted = b) : s.setFaulted b = s := by
  subst h; rfl

section

variable {s u : State} {tr : Transaction} {r : Reply}

/-- What KeyWrite, LoadROM and FBRead do does not depend on the fault flag. -/
theorem transact_setFaulted (htr : (∃ k b, tr = .keyWrite k b) ∨ (∃ bytes, tr = .loadRom bytes) ∨ tr = .fbRead)
    (h : transact tr s = .next (r, u)) (b : Bool) : transact tr (s.setFaulted b) = .next (r, u.setFaulted b) := by
  rcases htr with ⟨k, pressed, rfl⟩ | ⟨bytes, rfl⟩ | rfl
  · cases h; rfl
  · simp only [transact, loadRom] at h ⊢
    split at h
    · next hlen => cases h; rw [if_pos hlen]
    · next hlen => cases h; rw [if_neg hlen]; rfl
  · cases h; rfl

/-- No transaction but Reset clears a fault. -/
theorem transact_faulted (hs : s.faulted = true) (h : transact tr s = .next (r, u)) (hreset : tr ≠ .reset) :
    u.faulted = true := by
  obtain ⟨hstatus, -⟩ := faultRegistersAndKeypadFrame tr s u r h hreset
  rcases hstatus with ⟨hfaulted, -⟩ | ⟨-, -, hfaulted⟩
  · rw [hfaulted, hs]
  · exact hfaulted

end

/-- Settles O38: the step that does nothing, the tick, the transactions that do not read the flag, and Reset. -/
theorem faultedCoreWaitsForReset : Obligations.FaultedCoreWaitsForReset := by
  intro s hs
  refine ⟨⟨step_of_faulted hs, fun rand => ?_⟩,
    ⟨tick s, rfl, countDown_toNat s.dt, countDown_toNat s.st⟩, fun tr r u htr h => ?_, fun tr r u h => ?_⟩
  · rw [cycle_eq_mapNext, step_of_faulted (s := s.setRandIn (some rand)) hs]
    rfl
  · have hself : State.setFaulted { s with faulted := false } true = s := State.setFaulted_of_eq hs
    have hfaulted := transact_setFaulted htr h true
    rwa [hself] at hfaulted
  · constructor
    · intro hu
      by_contra hreset
      simp [transact_faulted hs h hreset] at hu
    · rintro rfl
      cases h
      rfl

end Sys2Proof.Machine
end

section

/-! PROOFS. Reset, loading a program and the first fetch (spec/70_reset_and_hazards.md R135 to R138, spec/10_state.md
R30). -/

namespace Sys2Proof.Machine

/-! ### LoadROM (R137) -/

section

variable {s : State} {bytes : List Byte}

theorem transact_loadRom_of_le (h : bytes.length ≤ 0xE00) :
    transact (.loadRom bytes) s = .next (.accepted, s.storeBytes 0x200 bytes) :=
  congrArg Host.Outcome.next (if_neg (Nat.not_lt.mpr h))

theorem transact_loadRom_of_gt (h : bytes.length > 0xE00) : transact (.loadRom bytes) s = .next (.refused, s) :=
  congrArg Host.Outcome.next (if_pos h)

end

/-- Settles O46: the two sides of the length check, and what a read sees after a store. -/
theorem loadRomCopiesOrRefuses : Obligations.LoadRomCopiesOrRefuses := fun s bytes hmem =>
  ⟨fun hlen => ⟨_, transact_loadRom_of_le hlen,
    fun k hk => s.readByte_storeBytes_same bytes 0x200 k hk hmem,
    fun a ha => s.readByte_storeBytes_other bytes 0x200 a ha, rfl⟩,
  transact_loadRom_of_gt⟩

/-! ### The state after Reset (R135, R30) -/

theorem Memory.initial_eq_getD (font : FontTable) (a : Nat) :
    Memory.initial font a = if 0x050 ≤ a ∧ a < 0x0A0 then font.toList.getD (a - 0x050) 0 else 0x00 := by
  unfold Memory.initial
  split
  · next h =>
    have hfont : a - 0x050 < font.toList.length := by rw [Vector.length_toList]; omega
    rw [List.getD_eq_getElem _ _ hfont, Vector.getElem_toList]
  · rfl

/-- After Reset no byte is listed, so each reads as its reset contents. -/
theorem readByte_resetCore (s : State) (a : Nat) : (resetCore s).readByte a = Memory.initial s.config.font a := rfl

/-- Settles O47: the fields of `resetCore`, and its memory through the reset contents. -/
theorem resetGivesTheResetState : Obligations.ResetGivesTheResetState := by
  intro s
  refine ⟨resetCore s, rfl, fun a _ => ?_, fun r => ?_, rfl, rfl, rfl, fun k => ?_, rfl, rfl,
    FrameBuffer.pixel_blank, fun k => ?_, rfl, rfl, rfl, rfl, rfl⟩
  · rw [readByte_resetCore, Memory.initial_eq_getD]
  · exact Vector.getElem_replicate r.isLt
  · exact Vector.getElem_replicate k.isLt
  · exact Vector.getElem_replicate k.isLt

/-! ### The first fetch (R136, R138) -/

/-- A sequence runs its first transaction and then the rest from the state it leaves (R130). -/
theorem transactAll_cons_of_next {tr : Transaction} {trs : List Transaction} {s u t : State} {r : Reply}
    {rs : List Reply} (hr : transact tr s = .next (r, u)) (hrs : transactAll trs u = .next (rs, t)) :
    transactAll (tr :: trs) s = .next (r :: rs, t) := by
  simp only [transactAll, hr, hrs]

/-- Settles O49: memory after Reset is in canonical form, so O46 gives the two bytes at 0x200, where PC still points. -/
theorem firstCycleFetchesTheProgram : Obligations.FirstCycleFetchesTheProgram := by
  intro s h l rest hlen
  have hmem : Memory.WF (resetCore s).config.font (resetCore s).mem := ⟨.nil, nofun⟩
  obtain ⟨hcopies, -⟩ := loadRomCopiesOrRefuses (resetCore s) (h :: l :: rest) hmem
  obtain ⟨u, hload, hbyte, -, hframe⟩ := hcopies hlen
  have hpc : u.pc.toNat = 0x200 := by rw [hframe]; rfl
  have hhigh : u.readByte 0x200 = h := hbyte 0 (Nat.succ_pos _)
  have hlow : u.readByte 0x201 = l := hbyte 1 (Nat.succ_lt_succ (Nat.succ_pos _))
  refine ⟨_, u, transactAll_cons_of_next rfl (transactAll_cons_of_next hload rfl), ?_, hpc, ?_⟩
  · rw [hframe]; rfl
  · rw [fetch_of_le (by omega), joinBytes_eq_ofNat, hpc, hhigh, hlow]

end Sys2Proof.Machine
end
